-- ==== Sys2Proof/Word.lean ====
section
/-! DEFINITION. The word types of the block (`spec/10_state.md` rules R20, R22, R23, R27): plain bit vectors. -/

namespace Sys2Proof

/-- A 64-bit port word: the registers A, B and RESULT of rule R20. -/
abbrev Word := BitVec 64

/-- A 32-bit word: the register CMD of rule R20 (the command word of rule R81). -/
abbrev CmdWord := BitVec 32

/-- One 32-bit word of the seed array, `S[0] .. S[55]` of rule R27. -/
abbrev SWord := BitVec 32

/-- An 8-bit status or fault code: the registers STATUS (rule R22) and FAULT (rule R23). -/
abbrev Code := BitVec 8

end Sys2Proof
end

