-- ==== Sys2Proof/Machine/Operands.lean ====
section
/-! DEFINITION. The operand kinds and the result kinds of the block (`spec/30_encoding.md` rules R82 and R83): how a
64-bit port word is read as an operand value, how an operand value is written as a port word (the encoder and the
assembler of rule R88), and how a result value is written into RESULT. -/

namespace Sys2Proof.Machine

/-- Kind Q of rule R82: the 64-bit two's-complement raw value. -/
def readQ (w : Word) : Int := w.toInt

/-- Kind IDX of rule R82: the 64-bit two's-complement integer. -/
def readIdx (w : Word) : Int := w.toInt

/-- Kind INT of rule R82: the 64-bit two's-complement integer. -/
def readInt (w : Word) : Int := w.toInt

/-- Kind I32 of rule R82: bits [31:0] read as a 32-bit two's-complement value; bits [63:32] are ignored. -/
def readI32 (w : Word) : Int := (w.extractLsb' 0 32).toInt

/-- The 64-bit word an operand value is written as: its two's-complement form, which for an I32 value is its
sign extension (rule R88). -/
def operandWord (v : Int) : Word := BitVec.ofInt 64 v

/-- The word written for an operand of kind none (rule R88: an omitted operand word is written as 0). -/
def noOperand : Word := 0#64

/-- Result kind Q of rule R83: the 64-bit raw value. -/
def resultQ (v : Int) : Word := BitVec.ofInt 64 v

/-- Result kind I32 of rule R83: `sext_64`, which leaves the value unchanged (`spec/00_scope.md` rule R8).
DEDUCED (log entry 7): where the value is one below the 32-bit range (rule R216 after a WRPRNG, "returns minValue − 1"
with minValue = I32MIN) the 64-bit value is still the exact one; no rule wraps it. -/
def resultI32 (v : Int) : Word := BitVec.ofInt 64 v

/-- Result kind INT of rule R83: a 64-bit integer that is not a Q31.32 value. -/
def resultInt (v : Int) : Word := BitVec.ofInt 64 v

/-- Result kind zero of rule R83. -/
def resultZero : Word := 0#64

end Sys2Proof.Machine
end

