-- ==== Sys2Proof/Syntax.lean ====
section
/-! DEFINITION. The commands of the block (`spec/30_encoding.md` rule R84), one constructor for each row of
`spec/opcode_table.json`, and the command triple the host writes (rule R80). An operand is the integer value the
command's rule sees (rule R82): kinds Q, IDX and INT are 64-bit signed integers, kind I32 is a 32-bit signed integer;
`Sys2Proof/WellFormed.lean` checks the ranges. A word of kind "none" is no operand at all. -/

namespace Sys2Proof

/-- A command triple as the host writes it into the port registers (rule R80): the command word CMD and the two
operand words A and B. -/
structure Command where
  /-- The 32-bit command word (rule R81). -/
  cmd : CmdWord
  /-- The 64-bit operand word A. -/
  a : Word
  /-- The 64-bit operand word B. -/
  b : Word
deriving DecidableEq, Repr

/-- The command set (rule R84). -/
inductive Instr where
  /-- NOP, OP 0x00 (rule R250). -/
  | nop
  /-- RDSTATUS, OP 0x01 (rule R251). -/
  | rdstatus
  /-- CLRFAULT, OP 0x02 (rule R252). -/
  | clrfault
  /-- RDPRNG, OP 0x03 (rule R253): `idx` = A (IDX). -/
  | rdprng (idx : Int)
  /-- WRPRNG, OP 0x04 (rule R254): `idx` = A (IDX), `value` = B (INT). -/
  | wrprng (idx value : Int)
  /-- ADD, OP 0x10 (rule R100): A and B are Q. -/
  | add (a b : Int)
  /-- SUB, OP 0x11 (rule R101): A and B are Q. -/
  | sub (a b : Int)
  /-- MUL, OP 0x12 (rule R102): A and B are Q. -/
  | mul (a b : Int)
  /-- DIV, OP 0x13 (rule R103): A (dividend) and B (divisor) are Q. -/
  | div (a b : Int)
  /-- FLOOR, OP 0x14 (rule R104): A is Q. -/
  | floor (x : Int)
  /-- ROUND, OP 0x15 (rule R105): A is Q. -/
  | round (x : Int)
  /-- SIGN, OP 0x16 (rule R106): A is Q. -/
  | sign (x : Int)
  /-- ABS, OP 0x17 (rule R107): A is Q. -/
  | abs (x : Int)
  /-- LUT, OP 0x20 (rule R140): A is IDX. -/
  | lut (i : Int)
  /-- SIN, OP 0x21 (rule R152): A is Q. -/
  | sin (x : Int)
  /-- COS, OP 0x22 (rule R153): A is Q. -/
  | cos (x : Int)
  /-- SQRT, OP 0x23 (rule R160): A is Q. -/
  | sqrt (x : Int)
  /-- LOG2, OP 0x24 (rule R170): A is Q. -/
  | log2 (x : Int)
  /-- LN, OP 0x25 (rule R171): A is Q. -/
  | ln (x : Int)
  /-- EXP, OP 0x26 (rule R180): A is Q. -/
  | exp (x : Int)
  /-- SEED, OP 0x30 (rule R201): A is I32. -/
  | seed (seed : Int)
  /-- NEXT, OP 0x31 (rule R212). -/
  | next
  /-- NEXTMAX, OP 0x32 (rule R214): A is I32. -/
  | nextmax (maxValue : Int)
  /-- NEXTRANGE, OP 0x33 (rule R216): A and B are I32. -/
  | nextrange (minValue maxValue : Int)
  /-- GAUSS, OP 0x34 (rule R220). -/
  | gauss
deriving DecidableEq, Repr

end Sys2Proof
end

