-- ==== Sys2Proof/WellFormed.lean ====
section
/-! DEFINITION. The checks on a command as syntax: every operand lies in the range of its kind (`spec/30_encoding.md`
rule R82; rule R88 gives the same range for an I32 operand of the assembler). -/

namespace Sys2Proof

/-- The value of a 64-bit two's-complement word: the kinds Q, IDX and INT of rule R82. -/
def fits64 (v : Int) : Bool :=
  decide (-9223372036854775808 ≤ v ∧ v ≤ 9223372036854775807)

/-- The value of a 32-bit two's-complement word: the kind I32 of rules R82 and R88. -/
def fits32 (v : Int) : Bool :=
  decide (-2147483648 ≤ v ∧ v ≤ 2147483647)

/-- Every operand of the command is a value of its kind (the operand columns of rule R84). -/
def Instr.wf : Instr → Bool
  | .nop => true
  | .rdstatus => true
  | .clrfault => true
  | .rdprng idx => fits64 idx
  | .wrprng idx value => fits64 idx && fits64 value
  | .add a b => fits64 a && fits64 b
  | .sub a b => fits64 a && fits64 b
  | .mul a b => fits64 a && fits64 b
  | .div a b => fits64 a && fits64 b
  | .floor x => fits64 x
  | .round x => fits64 x
  | .sign x => fits64 x
  | .abs x => fits64 x
  | .lut i => fits64 i
  | .sin x => fits64 x
  | .cos x => fits64 x
  | .sqrt x => fits64 x
  | .log2 x => fits64 x
  | .ln x => fits64 x
  | .exp x => fits64 x
  | .seed sd => fits32 sd
  | .next => true
  | .nextmax maxValue => fits32 maxValue
  | .nextrange minValue maxValue => fits32 minValue && fits32 maxValue
  | .gauss => true

end Sys2Proof
end

