-- ==== Sys2Proof/Decode.lean ====
section
/-! DEFINITION. The decoder of the command word (`spec/30_encoding.md` rules R81, R82, R84, R85, R87), total on every
triple and rejecting by name, and after it the encoder. -/

namespace Sys2Proof

open Sys2Proof.Machine

/-- Why a command word is illegal (rule R85). Both reasons raise ILLEGAL_COMMAND. -/
inductive IllegalWord where
  /-- CMD[31:8] is not zero. -/
  | reservedBits
  /-- OP is not listed in rule R84. -/
  | reservedOpcode
deriving DecidableEq, Repr

/-- OP, CMD[7:0] (rule R81). -/
def opField (cmd : CmdWord) : BitVec 8 := cmd.extractLsb' 0 8

/-- RSV, CMD[31:8] (rule R81). -/
def rsvField (cmd : CmdWord) : BitVec 24 := cmd.extractLsb' 8 24

/-- The command that an opcode of rule R84 selects, with its operands read in their kinds (rule R82). -/
def decodeOp (op : BitVec 8) (a b : Word) : Except IllegalWord Instr :=
  match op with
  | 0x00#8 => .ok .nop
  | 0x01#8 => .ok .rdstatus
  | 0x02#8 => .ok .clrfault
  | 0x03#8 => .ok (.rdprng (readIdx a))
  | 0x04#8 => .ok (.wrprng (readIdx a) (readInt b))
  | 0x10#8 => .ok (.add (readQ a) (readQ b))
  | 0x11#8 => .ok (.sub (readQ a) (readQ b))
  | 0x12#8 => .ok (.mul (readQ a) (readQ b))
  | 0x13#8 => .ok (.div (readQ a) (readQ b))
  | 0x14#8 => .ok (.floor (readQ a))
  | 0x15#8 => .ok (.round (readQ a))
  | 0x16#8 => .ok (.sign (readQ a))
  | 0x17#8 => .ok (.abs (readQ a))
  | 0x20#8 => .ok (.lut (readIdx a))
  | 0x21#8 => .ok (.sin (readQ a))
  | 0x22#8 => .ok (.cos (readQ a))
  | 0x23#8 => .ok (.sqrt (readQ a))
  | 0x24#8 => .ok (.log2 (readQ a))
  | 0x25#8 => .ok (.ln (readQ a))
  | 0x26#8 => .ok (.exp (readQ a))
  | 0x30#8 => .ok (.seed (readI32 a))
  | 0x31#8 => .ok .next
  | 0x32#8 => .ok (.nextmax (readI32 a))
  | 0x33#8 => .ok (.nextrange (readI32 a) (readI32 b))
  | 0x34#8 => .ok .gauss
  | _ => .error .reservedOpcode

/-- The decoder (rule R87): for any triple exactly one command of rule R84, or the reason it is illegal (rule R85). -/
def decode (c : Command) : Except IllegalWord Instr :=
  if rsvField c.cmd = 0#24 then decodeOp (opField c.cmd) c.a c.b else .error .reservedBits

/-- The opcode of a command (rule R84). -/
def opcode : Instr → BitVec 8
  | .nop => 0x00#8
  | .rdstatus => 0x01#8
  | .clrfault => 0x02#8
  | .rdprng _ => 0x03#8
  | .wrprng _ _ => 0x04#8
  | .add _ _ => 0x10#8
  | .sub _ _ => 0x11#8
  | .mul _ _ => 0x12#8
  | .div _ _ => 0x13#8
  | .floor _ => 0x14#8
  | .round _ => 0x15#8
  | .sign _ => 0x16#8
  | .abs _ => 0x17#8
  | .lut _ => 0x20#8
  | .sin _ => 0x21#8
  | .cos _ => 0x22#8
  | .sqrt _ => 0x23#8
  | .log2 _ => 0x24#8
  | .ln _ => 0x25#8
  | .exp _ => 0x26#8
  | .seed _ => 0x30#8
  | .next => 0x31#8
  | .nextmax _ => 0x32#8
  | .nextrange _ _ => 0x33#8
  | .gauss => 0x34#8

/-- The operand word A of a command (the column A of rule R84; kind none is written as 0). -/
def wordA : Instr → Word
  | .nop => noOperand
  | .rdstatus => noOperand
  | .clrfault => noOperand
  | .rdprng idx => operandWord idx
  | .wrprng idx _ => operandWord idx
  | .add a _ => operandWord a
  | .sub a _ => operandWord a
  | .mul a _ => operandWord a
  | .div a _ => operandWord a
  | .floor x => operandWord x
  | .round x => operandWord x
  | .sign x => operandWord x
  | .abs x => operandWord x
  | .lut i => operandWord i
  | .sin x => operandWord x
  | .cos x => operandWord x
  | .sqrt x => operandWord x
  | .log2 x => operandWord x
  | .ln x => operandWord x
  | .exp x => operandWord x
  | .seed sd => operandWord sd
  | .next => noOperand
  | .nextmax maxValue => operandWord maxValue
  | .nextrange minValue _ => operandWord minValue
  | .gauss => noOperand

/-- The operand word B of a command (the column B of rule R84; kind none is written as 0). -/
def wordB : Instr → Word
  | .wrprng _ value => operandWord value
  | .add _ b => operandWord b
  | .sub _ b => operandWord b
  | .mul _ b => operandWord b
  | .div _ b => operandWord b
  | .nextrange _ maxValue => operandWord maxValue
  | .nop | .rdstatus | .clrfault | .rdprng _ => noOperand
  | .floor _ | .round _ | .sign _ | .abs _ => noOperand
  | .lut _ | .sin _ | .cos _ | .sqrt _ | .log2 _ | .ln _ | .exp _ => noOperand
  | .seed _ | .next | .nextmax _ | .gauss => noOperand

/-- The encoder: CMD[7:0] is the opcode and CMD[31:8] is zero (rule R81), then the operand words. -/
def encode (i : Instr) : Command :=
  { cmd := (opcode i).setWidth 32, a := wordA i, b := wordB i }

/-- The triple whose bits are `w`, of which only the low `nbits` count: CMD is bits 31..0, A is bits 95..32 and B is
bits 159..96. The command words move whole, so no byte order enters (`spec/20_memory.md` rule R61). -/
def commandOfBits (nbits w : Nat) : Command :=
  let v := w % 2 ^ nbits
  { cmd := BitVec.ofNat 32 v, a := BitVec.ofNat 64 (v / 4294967296), b := BitVec.ofNat 64 (v / 79228162514264337593543950336) }

/-- The command the decoder reads from the triple whose bits are `w` (every bit above `nbits` zero). -/
def decodeTableWord (nbits w : Nat) : Option Instr :=
  match decode (commandOfBits nbits w) with
  | .ok i => some i
  | .error _ => none

end Sys2Proof
end

