-- ==== Sys2Proof/Machine/State.lean ====
section
/-! DEFINITION. The state of the block: every piece of state of `spec/10_state.md` (rules R20, R22, R23, R24, R27), as plain
data, and its reset values (rule R35). The sine ROM and the constants (rules R30, R31) never change and stand in
`Sys2Proof/Machine/Constants.lean` (log entry 4). The block has no memory, no program counter and no general registers
(rules R20, R21, R60). -/

namespace Sys2Proof.Machine

/-- The faults of rule R300, codes 0x01 to 0x08 (the codes stand in `Sys2Proof/Machine/Flags.lean`). A fault is an outcome
of a COMMAND: the block takes a next state (rule R303). -/
inductive FaultCode where
  /-- ILLEGAL_COMMAND: reserved OP or nonzero CMD[31:8] (rule R85). -/
  | illegalCommand
  /-- DIV_BY_ZERO (rule R103). -/
  | divByZero
  /-- SQRT_NEGATIVE (rule R160). -/
  | sqrtNegative
  /-- LOG_NONPOSITIVE (rule R170). -/
  | logNonpositive
  /-- PRNG_RANGE (rules R214, R216). -/
  | prngRange
  /-- LUT_INDEX (rules R140, R150). -/
  | lutIndex
  /-- NOT_SEEDED (rule R210). -/
  | notSeeded
  /-- BAD_STATE_ACCESS (rules R253, R254). -/
  | badStateAccess
deriving DecidableEq, Repr

/-- The PRNG context of rule R27: the seed array and the two cursors. -/
structure Prng where
  /-- `S[0] .. S[55]`, 32 bits each. -/
  seedArray : Vector SWord 56
  /-- INEXT, an integer 0..55. -/
  inext : Fin 56
  /-- INEXTP, an integer 0..55. -/
  inextp : Fin 56
deriving DecidableEq, Repr

/-- What the host does to the block from outside (rules R80, R340): the block's only inputs. -/
inductive HostEvent where
  /-- The host writes the triple into CMD, A and B, and the block executes it. -/
  | command (c : Command)
  /-- Reset arrives between two commands (rule R340). -/
  | reset
  /-- The host issues a command and reset arrives while it executes (rule R340: the command has no effect). -/
  | resetDuring (c : Command)
deriving DecidableEq, Repr

/-- The state of the block. -/
structure State where
  /-- The port register CMD (rule R20), written by the host. -/
  cmd : CmdWord
  /-- The port register A (rule R20), written by the host. -/
  a : Word
  /-- The port register B (rule R20), written by the host. -/
  b : Word
  /-- The port register RESULT (rule R20). -/
  result : Word
  /-- STATUS: the outcome code of the most recent command (rule R22). -/
  status : Code
  /-- FAULT: the sticky first-fault code (rule R23). -/
  fault : Code
  /-- SEEDED: the generator's phase (rule R24). -/
  seeded : Bool
  /-- The PRNG context (rule R27). -/
  prng : Prng
  /-- THE MODEL'S OWN FIELD, not the spec's: what the host has still to do, first event first (rule R80: "the host's
  program as a list of such triples"; log entry 1). -/
  host : List HostEvent
deriving DecidableEq, Repr

/-- Reasons for which a step of the model stops with a fault: none. The block "never stops on its own: a fault blocks
compute commands but stops nothing" (rule R345), so no step of this machine raises one. -/
inductive Fault where
deriving DecidableEq, Repr

/-- Reasons for which the model refuses a step. -/
inductive Refusal where
  /-- An instruction of the table that has no meaning yet, raised only by an arm of `exec`; safe. No arm raises it:
  every command of rule R84 has its meaning. -/
  | notModelled (mnemonic : String)
deriving DecidableEq, Repr

/-- The PRNG context after reset: all zero (rule R35). -/
def Prng.reset : Prng where
  seedArray := Vector.replicate 56 0#32
  inext := 0
  inextp := 0

/-- The block right after reset (rules R35, R340). CMD, A and B are unspecified there; the model names zero
(DESIGN CHOICE, log entry 2). No host event is pending. -/
def State.reset : State where
  cmd := 0#32
  a := 0#64
  b := 0#64
  result := 0#64
  status := 0#8
  fault := 0#8
  seeded := false
  prng := Prng.reset
  host := []

end Sys2Proof.Machine
end

