-- ==== Sys2Proof/Machine/Flags.lean ====
section
/-! DEFINITION. The status and fault codes (`spec/60_exceptions.md` rule R300) and the word RDSTATUS reads
(`spec/44_control.md` rule R251). The block has no condition codes (`spec/10_state.md` rule R25): STATUS, FAULT and SEEDED
are its only flags. -/

namespace Sys2Proof.Machine

/-- The 8-bit code of a fault (rule R300). -/
def FaultCode.code : FaultCode → Code
  | .illegalCommand => 0x01#8
  | .divByZero => 0x02#8
  | .sqrtNegative => 0x03#8
  | .logNonpositive => 0x04#8
  | .prngRange => 0x05#8
  | .lutIndex => 0x06#8
  | .notSeeded => 0x07#8
  | .badStateAccess => 0x08#8

/-- STATUS = OK (rule R300); also FAULT = none (rule R23). -/
def codeOk : Code := 0x00#8

/-- STATUS = BLOCKED (rule R300): a refusal of a compute command, not a fault. -/
def codeBlocked : Code := 0x09#8

/-- `zext_64(SEEDED)` of rules R32 and R251. -/
def seededWord (seeded : Bool) : Word := if seeded then 1#64 else 0#64

/-- The word RDSTATUS returns (rule R251): FAULT in bits [7:0], SEEDED in bit 8, the previous STATUS in bits [23:16]. -/
def statusWord (fault : Code) (seeded : Bool) (prev : Code) : Word :=
  fault.setWidth 64 ||| (seededWord seeded <<< 8) ||| (prev.setWidth 64 <<< 16)

end Sys2Proof.Machine
end

