-- ==== Sys2Proof/Machine/Ops.lean ====
section
/-! DEFINITION. The shared operations on the state: how a command ends (OK, fault, BLOCKED), the state index space, and
the host's writes to the ports. -/

namespace Sys2Proof.Machine

/-- A command ends with STATUS = OK and writes RESULT (`spec/10_state.md` rule R26). -/
def State.complete (s : State) (value : Word) : State :=
  { s with result := value, status := codeOk }

/-- TAKING A FAULT (`spec/60_exceptions.md` rule R303): STATUS takes the code, FAULT takes it only while it is clear, and
nothing else changes. -/
def State.raise (s : State) (c : FaultCode) : State :=
  { s with status := c.code, fault := if s.fault = codeOk then c.code else s.fault }

/-- A compute command is refused while FAULT ≠ 0 (rule R305): STATUS becomes BLOCKED, nothing else changes. -/
def State.block (s : State) : State :=
  { s with status := codeBlocked }

/-- The way back from a fault (rule R306: there is no trap return; the host resumes with CLRFAULT, rule R252). -/
def State.clearFault (s : State) : State :=
  { s with fault := codeOk }

/-- How a command that ran ends: with the state its writes make and its result, or with a fault charged to the state
BEFORE the command, so that none of its writes remains (`spec/20_memory.md` rule R63). -/
def State.finish (s : State) : Except FaultCode (State × Word) → State
  | .ok (t, value) => t.complete value
  | .error c => s.raise c

/-- A command that is never BLOCKED: NOP, RDSTATUS, CLRFAULT, RDPRNG, WRPRNG (rule R305). -/
def controlCommand (s : State) (r : Except FaultCode (State × Word)) : Host.Outcome State Fault Refusal :=
  .next (s.finish r)

/-- A compute command (rule R302): BLOCKED is decided before the command's own checks. -/
def computeCommand (s : State) (r : Except FaultCode (State × Word)) : Host.Outcome State Fault Refusal :=
  .next (if s.fault = codeOk then s.finish r else s.block)

/-- A compute command that writes no state but RESULT and STATUS (rule R64, first row). -/
def computeValue (s : State) (r : Except FaultCode Word) : Host.Outcome State Fault Refusal :=
  computeCommand s (r.map fun value => (s, value))

/-- DrawGuard of `spec/43_random.md` rule R210. -/
def drawGuard (s : State) : Except FaultCode Unit :=
  if s.seeded then .ok () else .error .notSeeded

/-- A draw command (rules R210, R302): its own operand check, then DrawGuard, then its computation on the PRNG context. -/
def computeDraw (s : State) (check : Except FaultCode Unit) (draw : Prng → Except FaultCode (Word × Prng)) :
    Host.Outcome State Fault Refusal :=
  computeCommand s (do
    check
    drawGuard s
    let (value, g) ← draw s.prng
    pure ({ s with prng := g }, value))

/-- The seed-array word `S[i]` as a signed integer (rule R27). -/
def Prng.read (g : Prng) (i : Fin 56) : Int := (g.seedArray[i]).toInt

/-- `S[i] <- v`, the low 32 bits of `v` (rules R27 and R32). -/
def Prng.write (g : Prng) (i : Fin 56) (v : Int) : Prng :=
  { g with seedArray := g.seedArray.set i.val (BitVec.ofInt 32 v) i.isLt }

/-- The read side of the state index space (`spec/10_state.md` rule R32, `spec/44_control.md` rule R253). -/
def readElement (s : State) (idx : Int) : Except FaultCode Word :=
  if idx < 0 ∨ idx > 58 then .error .badStateAccess
  else if idx ≤ 55 then .ok (resultInt (s.prng.read (Fin.ofNat 56 idx.toNat)))
  else if idx = 56 then .ok (resultInt s.prng.inext.val)
  else if idx = 57 then .ok (resultInt s.prng.inextp.val)
  else .ok (seededWord s.seeded)

/-- The write side of the state index space (`spec/10_state.md` rule R32, `spec/44_control.md` rule R254): the index is
checked before the value. -/
def writeElement (s : State) (idx value : Int) : Except FaultCode State :=
  if idx < 0 ∨ idx > 58 then .error .badStateAccess
  else if idx ≤ 55 then .ok { s with prng := s.prng.write (Fin.ofNat 56 idx.toNat) value }
  else if idx ≤ 57 then
    if value < 0 ∨ value > 55 then .error .badStateAccess
    else if idx = 56 then .ok { s with prng := { s.prng with inext := Fin.ofNat 56 value.toNat } }
    else .ok { s with prng := { s.prng with inextp := Fin.ofNat 56 value.toNat } }
  else if value ≠ 0 ∧ value ≠ 1 then .error .badStateAccess
  else .ok { s with seeded := decide (value = 1) }

/-- The host writes the triple into the port registers (rule R20), which takes the first event off its list. -/
def State.latch (s : State) (c : Command) (rest : List HostEvent) : State :=
  { s with cmd := c.cmd, a := c.a, b := c.b, host := rest }

/-- The triple in the port registers. -/
def State.ports (s : State) : Command := { cmd := s.cmd, a := s.a, b := s.b }

/-- Reset (rules R35, R340): every element takes its reset value; what the host has still to do is not the block's. -/
def State.resetKeeping (rest : List HostEvent) : State :=
  { State.reset with host := rest }

end Sys2Proof.Machine
end

