-- ==== Sys2Proof/Machine/Control.lean ====
section
/-! DEFINITION. The meanings of the control commands (`spec/44_control.md` rules R250 to R254), none of which is refused
while FAULT ≠ 0 (`spec/60_exceptions.md` rule R305). -/

namespace Sys2Proof.Machine

/-- NOP (rule R250). -/
def execNop (s : State) : Host.Outcome State Fault Refusal :=
  controlCommand s (.ok (s, resultZero))

/-- RDSTATUS (rule R251): it reads STATUS as the previous command left it. -/
def execRdstatus (s : State) : Host.Outcome State Fault Refusal :=
  controlCommand s (.ok (s, statusWord s.fault s.seeded s.status))

/-- CLRFAULT (rule R252). -/
def execClrfault (s : State) : Host.Outcome State Fault Refusal :=
  controlCommand s (.ok (s.clearFault, resultZero))

/-- RDPRNG (rule R253). -/
def execRdprng (idx : Int) (s : State) : Host.Outcome State Fault Refusal :=
  controlCommand s ((readElement s idx).map fun value => (s, value))

/-- WRPRNG (rule R254). -/
def execWrprng (idx value : Int) (s : State) : Host.Outcome State Fault Refusal :=
  controlCommand s ((writeElement s idx value).map fun t => (t, resultZero))

end Sys2Proof.Machine
end

