-- ==== Sys2Proof/Config.lean ====
section
/-! DEFINITION. What an implementation of the block fixes and the spec lets a model take as an argument
(`spec/00_scope.md` rule R6): the parameters `CONSTANTS`, `SINE_TABLE`, `DIV_ROUND` and `EXP_MAX_ITER`.
The default values stand in `Sys2Proof/Machine/Constants.lean` and `Sys2Proof/Machine/SineRom.lean`.
The spec leaves no value open (rule R10: a model never admits more than one result for a command), so there is no
opaque constant here. -/

namespace Sys2Proof.Config

/-- The parameter `DIV_ROUND` of rule R103: how DIV rounds the last quotient bit. -/
inductive DivRound where
  /-- Round the magnitude to nearest, ties away from zero (the default). -/
  | halfAway
  /-- Drop the fraction of the magnitude. -/
  | trunc
deriving DecidableEq, Repr

/-- `T[i] ≤ T[i+1]` along the list (rule R142: "monotonically non-decreasing over `[0,255]`"). -/
def nonDecreasing : List Int → Bool
  | x :: y :: rest => decide (x ≤ y) && nonDecreasing (y :: rest)
  | _ => true

/-- The three properties that rule R142 demands of every table given as `SINE_TABLE`: exactly 256 entries,
non-decreasing, every entry in `[0, ONE]`. -/
def sineTableOk (entries : List Int) : Bool :=
  entries.length == 256 && nonDecreasing entries && entries.all (fun v => decide (0 ≤ v ∧ v ≤ 4294967296))

/-- A sine table that has passed the check of rule R142. A table that fails it cannot be built, which is how this
model refuses it. -/
structure SineTable where
  /-- The 256 raw Q31.32 entries, `T[0]` first. -/
  entries : List Int
  /-- The check of rule R142. -/
  ok : sineTableOk entries = true
deriving DecidableEq, Repr

/-- The parameters of the block (rule R6): raw Q31.32 integers unless a field says otherwise. -/
structure Params where
  /-- PI of rule R30. -/
  pi : Int
  /-- TWO_PI of rule R30. -/
  twoPi : Int
  /-- PI_OVER_2 of rule R30. -/
  piOver2 : Int
  /-- LN2 of rule R30. -/
  ln2 : Int
  /-- E of rule R30. -/
  e : Int
  /-- LN_MAX of rule R30. -/
  lnMax : Int
  /-- LN_MIN of rule R30. -/
  lnMin : Int
  /-- LUT_INTERVAL of rule R30. -/
  lutInterval : Int
  /-- SINE_TABLE, the contents of the sine ROM (rules R31, R141). -/
  sineTable : SineTable
  /-- DIV_ROUND of rule R103. -/
  divRound : DivRound
  /-- EXP_MAX_ITER of rule R6: the bound on EXP's series terms, a plain count. -/
  expMaxIter : Nat
deriving DecidableEq, Repr

end Sys2Proof.Config
end

