-- ==== Sys2Proof/Machine/Prim.lean ====
section
/-! DEFINITION. The pseudocode primitives of `spec/00_scope.md` rule R8, on unbounded integers, and the constants of
`spec/10_state.md` rule R30 that are no parameters. -/

namespace Sys2Proof.Machine

/-- ONE of rule R30: the raw value of 1.0. -/
def qOne : Int := 4294967296

/-- MAX of rule R30: `2^63 − 1`. -/
def qMax : Int := 9223372036854775807

/-- MIN of rule R30: `−2^63`. -/
def qMin : Int := -9223372036854775808

/-- I32MAX of rule R30. -/
def i32Max : Int := 2147483647

/-- I32MIN of rule R30. -/
def i32Min : Int := -2147483648

/-- MBIG of rule R30: `2^31 − 1`. -/
def mBig : Int := 2147483647

/-- MSEED of rule R30. -/
def mSeed : Int := 161803398

/-- `sat64(v)` of rule R8. -/
def sat64 (v : Int) : Int := if v > qMax then qMax else if v < qMin then qMin else v

/-- `wrap32(v)` of rule R8: 32-bit two's-complement truncation. -/
def wrap32 (v : Int) : Int := (v + 2147483648) % 4294967296 - 2147483648

/-- `v >> 32` of rule R8: `floor(v / 2^32)`. -/
def shr32 (v : Int) : Int := v / 4294967296

/-- `v >> 1` of rule R8: `floor(v / 2)`. -/
def shr1 (v : Int) : Int := v / 2

/-- `v << 1` of rule R8: `2·v`, exact. -/
def shl1 (v : Int) : Int := v * 2

/-- `abs(v)` of rule R8: the mathematical absolute value. -/
def absInt (v : Int) : Int := if v < 0 then -v else v

/-- `fromInt(n)` of rule R8: the Q31.32 value of the integer `n`. -/
def fromInt (n : Int) : Int := n * 4294967296

/-- The digit steps of a binary square root: from the digit of weight `2^(k-1)` down to the digit of weight 1, a digit
is set when the root so far with it still has a square of at most `n`. -/
def isqrtDigits (n : Nat) : Nat → Nat → Nat
  | 0, r => r
  | k + 1, r => isqrtDigits n k (if (r + 2 ^ k) * (r + 2 ^ k) ≤ n then r + 2 ^ k else r)

/-- `isqrt(n)` of rule R8, `floor(√n)`, by 48 digit steps: enough for every `n < 2^96`, and SQRT needs `n < 2^95`
(`spec/42_trig.md` rule R160). -/
def isqrt (n : Nat) : Nat := isqrtDigits n 48 0

end Sys2Proof.Machine
end

