-- ==== Sys2Proof/Machine/Alu.lean ====
section
/-! DEFINITION. The functions of the fixed-point family on raw Q31.32 integers (`spec/40_fixed_point.md` rules R100 to
R110): what rule R110 means by add, sub, mul, div, abs_sat, sign, floor_q and round_q inside any command. -/

namespace Sys2Proof.Machine

/-- add of rule R100. -/
def addQ (a b : Int) : Int := sat64 (a + b)

/-- sub of rule R101. -/
def subQ (a b : Int) : Int := sat64 (a - b)

/-- mul of rule R102: the exact product rounded toward minus infinity, then clamped. -/
def mulQ (a b : Int) : Int := sat64 (shr32 (a * b))

/-- MUL128 of rule R108: the same product without the clamp. -/
def mul128 (a b : Int) : Int := shr32 (a * b)

/-- The rounded magnitude of the quotient of rule R103, for `n = |a|·2^32` and `d = |b|`. -/
def quotMagnitude (mode : Config.DivRound) (n d : Int) : Int :=
  match mode with
  | .halfAway => (2 * n + d) / (2 * d)
  | .trunc => n / d

/-- div of rule R103: the sign is applied to the rounded magnitude, then the clamp; a zero divisor faults. -/
def divQ (mode : Config.DivRound) (a b : Int) : Except FaultCode Int :=
  if b = 0 then .error .divByZero
  else
    let m := quotMagnitude mode (absInt a * 4294967296) (absInt b)
    .ok (sat64 (if (a < 0) ≠ (b < 0) then -m else m))

/-- floor_q of rule R104: clears bits [31:0], `(x >> 32) << 32`. -/
def floorQ (x : Int) : Int := shr32 x * 4294967296

/-- The fraction `x[31:0]` read unsigned (rule R105). -/
def fracQ (x : Int) : Int := x % 4294967296

/-- round_q of rule R105: nearest integral value, ties to even, the round-up step saturating. -/
def roundQ (x : Int) : Int :=
  if fracQ x < 2147483648 then floorQ x
  else if fracQ x > 2147483648 then sat64 (floorQ x + qOne)
  else if shr32 (floorQ x) % 2 = 0 then floorQ x
  else sat64 (floorQ x + qOne)

/-- sign of rule R106: a plain integer −1, 0 or +1. -/
def signQ (x : Int) : Int := if x < 0 then -1 else if x > 0 then 1 else 0

/-- abs_sat of rule R107. -/
def absQ (x : Int) : Int := if x = qMin then qMax else absInt x

end Sys2Proof.Machine
end

