-- ==== Sys2Proof/Machine/SineRom.lean ====
section
/-! DEFINITION. The default contents of the sine ROM, `spec/41_sine_table.md` rule R141: entry `i` is the nearest integer to
`sin(i·π/510)·2^32`. Copied from that rule's table in its order, 32 entries a piece. -/

namespace Sys2Proof.Machine

/-- `T[0] .. T[31]` of rule R141. -/
def sineRom0 : List Int :=
  [0, 26456769, 52912535, 79366292, 105817039, 132263769, 158705481, 185141171,
   211569836, 237990473, 264402079, 290803652, 317194190, 343572693, 369938158, 396289586,
   422625977, 448946331, 475249650, 501534935, 527801189, 554047416, 580272619, 606475804,
   632655976, 658812141, 684943308, 711048484, 737126679, 763176904, 789198170, 815189489]

/-- `T[32] .. T[63]` of rule R141. -/
def sineRom1 : List Int :=
  [841149876, 867078345, 892973913, 918835596, 944662414, 970453386, 996207534, 1021923881,
   1047601451, 1073239269, 1098836363, 1124391761, 1149904493, 1175373592, 1200798092, 1226177026,
   1251509433, 1276794351, 1302030821, 1327217885, 1352354587, 1377439973, 1402473093, 1427452994,
   1452378731, 1477249357, 1502063928, 1526821503, 1551521142, 1576161908, 1600742867, 1625263084]

/-- `T[64] .. T[95]` of rule R141. -/
def sineRom2 : List Int :=
  [1649721631, 1674117578, 1698450001, 1722717975, 1746920580, 1771056898, 1795126012, 1819127010,
   1843058981, 1866921016, 1890712210, 1914431661, 1938078468, 1961651733, 1985150564, 2008574067,
   2031921355, 2055191540, 2078383741, 2101497076, 2124530670, 2147483648, 2170355139, 2193144275,
   2215850192, 2238472027, 2261008923, 2283460024, 2305824479, 2328101439, 2350290058, 2372389494]

/-- `T[96] .. T[127]` of rule R141. -/
def sineRom3 : List Int :=
  [2394398910, 2416317469, 2438144341, 2459878696, 2481519710, 2503066563, 2524518436, 2545874515,
   2567133990, 2588296055, 2609359906, 2630324744, 2651189773, 2671954202, 2692617243, 2713178112,
   2733636029, 2753990217, 2774239904, 2794384322, 2814422705, 2834354295, 2854178334, 2873894071,
   2893500757, 2912997648, 2932384005, 2951659091, 2970822176, 2989872532, 3008809436, 3027632170]

/-- `T[128] .. T[159]` of rule R141. -/
def sineRom4 : List Int :=
  [3046340020, 3064932275, 3083408231, 3101767186, 3120008443, 3138131311, 3156135101, 3174019131,
   3191782722, 3209425199, 3226945894, 3244344142, 3261619281, 3278770658, 3295797621, 3312699524,
   3329475725, 3346125589, 3362648482, 3379043779, 3395310857, 3411449099, 3427457893, 3443336630,
   3459084710, 3474701533, 3490186507, 3505539046, 3520758565, 3535844489, 3550796243, 3565613262]

/-- `T[160] .. T[191]` of rule R141. -/
def sineRom5 : List Int :=
  [3580294982, 3594840847, 3609250305, 3623522809, 3637657817, 3651654792, 3665513205, 3679232529,
   3692812243, 3706251832, 3719550787, 3732708602, 3745724778, 3758598821, 3771330244, 3783918562,
   3796363298, 3808663980, 3820820141, 3832831320, 3844697061, 3856416914, 3867990434, 3879417181,
   3890696724, 3901828632, 3912812484, 3923647864, 3934334360, 3944871566, 3955259082, 3965496515]

/-- `T[192] .. T[223]` of rule R141. -/
def sineRom6 : List Int :=
  [3975583477, 3985519583, 3995304458, 4004937730, 4014419033, 4023748008, 4032924300, 4041947562,
   4050817451, 4059533631, 4068095770, 4076503544, 4084756634, 4092854727, 4100797515, 4108584697,
   4116215978, 4123691067, 4131009682, 4138171544, 4145176383, 4152023931, 4158713929, 4165246124,
   4171620267, 4177836117, 4183893438, 4189791999, 4195531578, 4201111956, 4206532921, 4211794268]

/-- `T[224] .. T[255]` of rule R141. -/
def sineRom7 : List Int :=
  [4216895798, 4221837316, 4226618635, 4231239574, 4235699957, 4239999615, 4244138386, 4248116111,
   4251932640, 4255587828, 4259081536, 4262413633, 4265583991, 4268592490, 4271439016, 4274123461,
   4276645723, 4279005706, 4281203321, 4283238485, 4285111120, 4286821155, 4288368525, 4289753172,
   4290975043, 4292034092, 4292930278, 4293663567, 4294233932, 4294641351, 4294885809, 4294967296]

/-- `T[0] .. T[255]` of rule R141. -/
def sineRom : List Int :=
  sineRom0 ++ sineRom1 ++ sineRom2 ++ sineRom3 ++ sineRom4 ++ sineRom5 ++ sineRom6 ++ sineRom7

/-- The default table passes the check of rule R142. -/
theorem sineRom_ok : Config.sineTableOk sineRom = true := by decide +kernel

/-- The default `SINE_TABLE` (rule R141). -/
def defaultSineTable : Config.SineTable := { entries := sineRom, ok := sineRom_ok }

end Sys2Proof.Machine
end

