-- ==== Sys2Proof/Machine/Constants.lean ====
section
/-! DEFINITION. The parameter values the block takes (`spec/00_scope.md` rule R6, `spec/10_state.md` rule R30): the
defaults of the spec, hardwired, which no command writes and reset does not change. -/

namespace Sys2Proof.Machine

/-- The default parameters: the constants of rule R30, the sine table of rule R141, `DIV_ROUND` = HALF_AWAY (rule R103)
and `EXP_MAX_ITER` = 40 (rule R6). -/
def params : Config.Params where
  pi := 13493037704
  twoPi := 26986075409
  piOver2 := 6746518852
  ln2 := 2977044471
  e := 11674931554
  lnMax := 92288378626
  lnMin := -95265423098
  lutInterval := 697236581115
  sineTable := defaultSineTable
  divRound := .halfAway
  expMaxIter := 40

/-- THREE_PI_OVER_2 of rule R30: PI + PI_OVER_2. -/
def threePiOver2 (p : Config.Params) : Int := p.pi + p.piOver2

/-- LOG2_ITER of rule R6: the squaring iterations of LOG2. -/
def log2Iter : Nat := 32

/-- SEED_STRIDE of rule R200. -/
def seedStride : Nat := 21

/-- MIX_OFFSET of rule R200. -/
def mixOffset : Nat := 30

/-- MIX_PASSES of rule R200. -/
def mixPasses : Nat := 4

/-- INEXT_INIT of rule R200. -/
def inextInit : Fin 56 := 0

/-- INEXTP_INIT of rule R200. -/
def inextpInit : Fin 56 := 21

end Sys2Proof.Machine
end

