-- ==== Sys2Proof/Machine/FixedPoint.lean ====
section
/-! DEFINITION. The meanings of the fixed-point commands (`spec/40_fixed_point.md` rules R100 to R107). -/

namespace Sys2Proof.Machine

/-- ADD (rule R100). -/
def execAdd (a b : Int) (s : State) : Host.Outcome State Fault Refusal :=
  computeValue s (.ok (resultQ (addQ a b)))

/-- SUB (rule R101). -/
def execSub (a b : Int) (s : State) : Host.Outcome State Fault Refusal :=
  computeValue s (.ok (resultQ (subQ a b)))

/-- MUL (rule R102). -/
def execMul (a b : Int) (s : State) : Host.Outcome State Fault Refusal :=
  computeValue s (.ok (resultQ (mulQ a b)))

/-- DIV (rule R103). -/
def execDiv (a b : Int) (s : State) : Host.Outcome State Fault Refusal :=
  computeValue s ((divQ params.divRound a b).map resultQ)

/-- FLOOR (rule R104). -/
def execFloor (x : Int) (s : State) : Host.Outcome State Fault Refusal :=
  computeValue s (.ok (resultQ (floorQ x)))

/-- ROUND (rule R105). -/
def execRound (x : Int) (s : State) : Host.Outcome State Fault Refusal :=
  computeValue s (.ok (resultQ (roundQ x)))

/-- SIGN (rule R106): the result is an integer, not a Q31.32 value. -/
def execSign (x : Int) (s : State) : Host.Outcome State Fault Refusal :=
  computeValue s (.ok (resultInt (signQ x)))

/-- ABS (rule R107). -/
def execAbs (x : Int) (s : State) : Host.Outcome State Fault Refusal :=
  computeValue s (.ok (resultQ (absQ x)))

end Sys2Proof.Machine
end

