-- ==== Sys2Proof/Machine/SineTable.lean ====
section
/-! DEFINITION. The read of the sine ROM and the LUT command (`spec/41_sine_table.md` rule R140, `spec/42_trig.md` rule R150). -/

namespace Sys2Proof.Machine

/-- The entry `T[i]` of a table, for `i` in 0..255 (rule R31). -/
def romEntry (t : Config.SineTable) (i : Nat) : Int := t.entries.getD i 0

/-- TableRead of rule R150, the same check as LUT's (rule R140). -/
def tableRead (p : Config.Params) (i : Int) : Except FaultCode Int :=
  if i < 0 ∨ i > 255 then .error .lutIndex else .ok (romEntry p.sineTable i.toNat)

/-- LUT (rule R140). -/
def execLut (i : Int) (s : State) : Host.Outcome State Fault Refusal :=
  computeValue s ((tableRead params i).map resultQ)

end Sys2Proof.Machine
end

