-- ==== Sys2Proof/Machine/Trig.lean ====
section
/-! DEFINITION. The trigonometric family (`spec/42_trig.md` rules R150 to R180): the functions on raw Q31.32 integers, as a
function of the parameters of `spec/00_scope.md` rule R6, and the meanings of SIN, COS, SQRT, LOG2, LN and EXP, which take
the block's own parameters. -/

namespace Sys2Proof.Machine

/-- `r2`, the angle modulo 2π (rule R151, step 1; Euclidean, decision D17). -/
def turnAngle (p : Config.Params) (x : Int) : Int := x % p.twoPi

/-- flipV: the lower half-turn, quadrants 3 and 4 (rule R151, step 1). -/
def flipV (p : Config.Params) (x : Int) : Bool := decide (turnAngle p x ≥ p.pi)

/-- `rp`, the angle modulo π (rule R151, step 1). -/
def halfTurnAngle (p : Config.Params) (x : Int) : Int := turnAngle p x % p.pi

/-- flipH: quadrants 2 and 4 (rule R151, step 1; `spec/90_conflicts.md` C2). -/
def flipH (p : Config.Params) (x : Int) : Bool := decide (halfTurnAngle p x ≥ p.piOver2)

/-- `rq`, the reduced angle (rule R151, step 1). -/
def reducedAngle (p : Config.Params) (x : Int) : Int :=
  if flipH p x then halfTurnAngle p x - p.piOver2 else halfTurnAngle p x

/-- `pos`, the table position (rule R151, step 2). -/
def tablePos (p : Config.Params) (x : Int) : Int := mulQ (reducedAngle p x) p.lutInterval

/-- `err`, the signed distance of the position from its nearest integral position (rule R151, step 2). -/
def posError (p : Config.Params) (x : Int) : Int := tablePos p x - roundQ (tablePos p x)

/-- `k`, the nearest table index before the mirror (rule R151, step 2). -/
def posIndex (p : Config.Params) (x : Int) : Int := shr32 (roundQ (tablePos p x))

/-- `n`, the index of the nearest entry, mirrored under flipH (rule R151, steps 3 and 4). -/
def nearestIndex (p : Config.Params) (x : Int) : Int :=
  if flipH p x then 255 - posIndex p x else posIndex p x

/-- `m`, the index of the adjacent entry, mirrored under flipH (rule R151, steps 3 and 4; C3). -/
def adjacentIndex (p : Config.Params) (x : Int) : Int :=
  if flipH p x then 255 - posIndex p x - signQ (posError p x) else posIndex p x + signQ (posError p x)

/-- The interpolated value with both flips applied (rule R151, steps 3 and 4). -/
def interpolate (p : Config.Params) (x nearest adjacent : Int) : Int :=
  let delta := mulQ (posError p x) (absQ (subQ nearest adjacent))
  let v := if flipH p x then nearest - delta else nearest + delta
  if flipV p x then -v else v

/-- SinCore of rule R151. -/
def sinCore (p : Config.Params) (x : Int) : Except FaultCode Int := do
  let nearest ← tableRead p (nearestIndex p x)
  let adjacent ← tableRead p (adjacentIndex p x)
  pure (interpolate p x nearest adjacent)

/-- COS's shifted angle (rule R153). -/
def cosAngle (p : Config.Params) (x : Int) : Int :=
  if x > 0 then x - threePiOver2 p else x + p.piOver2

/-- The function of SQRT (rule R160): the root of `x·2^32`, plus 1 if the remainder exceeds it. -/
def sqrtQ (x : Int) : Except FaultCode Int :=
  if x < 0 then .error .sqrtNegative
  else
    let n := (x * 4294967296).toNat
    let r := isqrt n
    .ok (if n - r * r > r then ((r + 1 : Nat) : Int) else ((r : Nat) : Int))

/-- LOG2's doublings, `while z < ONE` (rule R170), at most `fuel` of them; at most 32 happen (rule R344). -/
def logDoublings : Nat → Int → Int → Int × Int
  | 0, z, y => (z, y)
  | fuel + 1, z, y => if z < qOne then logDoublings fuel (shl1 z) (y - qOne) else (z, y)

/-- LOG2's halvings, `while z >= 2*ONE` (rule R170), at most `fuel` of them; at most 30 happen (rule R344). -/
def logHalvings : Nat → Int → Int → Int × Int
  | 0, z, y => (z, y)
  | fuel + 1, z, y => if z ≥ 2 * qOne then logHalvings fuel (shr1 z) (y + qOne) else (z, y)

/-- LOG2's squaring steps (rule R170), with `b` the weight of the next fractional bit. -/
def logBits : Nat → Int → Int → Int → Int
  | 0, _, y, _ => y
  | k + 1, z, y, b =>
    let z2 := mul128 z z
    if z2 ≥ 2 * qOne then logBits k (shr1 z2) (y + b) (shr1 b) else logBits k z2 y (shr1 b)

/-- The function of LOG2 (rule R170). -/
def log2Q (x : Int) : Except FaultCode Int :=
  if x ≤ 0 then .error .logNonpositive
  else
    let up := logDoublings 64 x 0
    let down := logHalvings 64 up.1 up.2
    .ok (logBits log2Iter down.1 down.2 2147483648)

/-- The function of LN (rule R171): mul of LOG2 and LN2. -/
def lnQ (p : Config.Params) (x : Int) : Except FaultCode Int := do
  let y ← log2Q x
  pure (mulQ y p.ln2)

/-- EXP's series (rule R180): at most `fuel` more terms, the next one of index `n`; it stops before adding a zero term. -/
def expSeries (p : Config.Params) (x : Int) : Nat → Int → Int → Int → Except FaultCode Int
  | 0, _, _, result => .ok result
  | fuel + 1, n, term, result => do
    let term' ← divQ p.divRound (mulQ term x) (fromInt n)
    if term' = 0 then pure result
    else expSeries p x fuel (n + 1) term' (addQ result term')

/-- The function of EXP (rule R180): the checks in the order listed, then the series, then the reciprocal. -/
def expQ (p : Config.Params) (x : Int) : Except FaultCode Int :=
  if x = 0 then .ok qOne
  else if x = qOne then .ok p.e
  else if x ≥ p.lnMax then .ok qMax
  else if x ≤ p.lnMin then .ok 0
  else do
    let result ← expSeries p (absInt x) p.expMaxIter 1 qOne qOne
    if x < 0 then divQ p.divRound qOne result else pure result

/-- SIN (rule R152). -/
def execSin (x : Int) (s : State) : Host.Outcome State Fault Refusal :=
  computeValue s ((sinCore params x).map resultQ)

/-- COS (rule R153). -/
def execCos (x : Int) (s : State) : Host.Outcome State Fault Refusal :=
  computeValue s ((sinCore params (cosAngle params x)).map resultQ)

/-- SQRT (rule R160). -/
def execSqrt (x : Int) (s : State) : Host.Outcome State Fault Refusal :=
  computeValue s ((sqrtQ x).map resultQ)

/-- LOG2 (rule R170). -/
def execLog2 (x : Int) (s : State) : Host.Outcome State Fault Refusal :=
  computeValue s ((log2Q x).map resultQ)

/-- LN (rule R171). -/
def execLn (x : Int) (s : State) : Host.Outcome State Fault Refusal :=
  computeValue s ((lnQ params x).map resultQ)

/-- EXP (rule R180). -/
def execExp (x : Int) (s : State) : Host.Outcome State Fault Refusal :=
  computeValue s ((expQ params x).map resultQ)

end Sys2Proof.Machine
end

