-- ==== Sys2Proof/Machine/Random.lean ====
section
/-! DEFINITION. The random family (`spec/43_random.md` rules R200 to R221): seeding, the raw draw, the bounded draws, the
Gaussian sampler, and the meanings of SEED, NEXT, NEXTMAX, NEXTRANGE and GAUSS. -/

namespace Sys2Proof.Machine

/-- "normalise": a negative value gets MBIG added, in 32 bits (rules R201 and R211). -/
def addMBigIfNegative (v : Int) : Int := if v < 0 then wrap32 (v + mBig) else v

/-- `sub` of rule R201: the seed's magnitude, with I32MIN read as I32MAX. -/
def seedMagnitude (seed : Int) : Int := if seed = i32Min then i32Max else absInt seed

/-- The slot of fill step `i`, `(SEED_STRIDE * i) mod 55` (rule R201). -/
def fillSlot (i : Nat) : Fin 56 := Fin.ofNat 56 (seedStride * i % 55)

/-- The neighbour of mixing index `i`, `1 + ((i + MIX_OFFSET) mod 55)` (rule R201). -/
def mixNeighbour (i : Nat) : Fin 56 := Fin.ofNat 56 (1 + (i + mixOffset) % 55)

/-- The fill of rule R201: `steps` steps from step `i` on, carrying `mj` and `mk`. -/
def seedFill : Nat → Nat → Int → Int → Prng → Prng
  | 0, _, _, _, g => g
  | steps + 1, i, mj, mk, g =>
    seedFill steps (i + 1) mk (addMBigIfNegative (wrap32 (mj - mk))) (g.write (fillSlot i) mk)

/-- One mixing step of rule R201, in place. -/
def mixStep (i : Nat) (g : Prng) : Prng :=
  g.write (Fin.ofNat 56 i) (addMBigIfNegative (wrap32 (g.read (Fin.ofNat 56 i) - g.read (mixNeighbour i))))

/-- One mixing pass of rule R201: `steps` mixing steps from index `i` on. -/
def mixPass : Nat → Nat → Prng → Prng
  | 0, _, g => g
  | steps + 1, i, g => mixPass steps (i + 1) (mixStep i g)

/-- The mixing passes of rule R201. -/
def mixAll : Nat → Prng → Prng
  | 0, g => g
  | passes + 1, g => mixAll passes (mixPass 55 1 g)

/-- The PRNG context that SEED builds (rule R201): `S'[55]`, the 54 fill steps, the mixing passes, `S'[0] = 0`, and the
two cursors. -/
def seedContext (seed : Int) : Prng :=
  let mj := mSeed - seedMagnitude seed
  let start : Prng := { seedArray := Vector.replicate 56 0#32, inext := inextInit, inextp := inextpInit }
  let filled := seedFill 54 1 mj 1 (start.write 55 mj)
  (mixAll mixPasses filled).write 0 0

/-- A cursor's advance, wrapping at 56 and skipping index 0 (rule R211). -/
def advance (i : Fin 56) : Fin 56 := Fin.ofNat 56 (if i.val + 1 ≥ 56 then 1 else i.val + 1)

/-- The value of a raw draw from the two words under the advanced cursors (rule R211). -/
def drawValue (x y : Int) : Int :=
  let v := wrap32 (x - y)
  addMBigIfNegative (if v = mBig then v - 1 else v)

/-- RawDraw of rule R211: the value, and the context with both cursors advanced and one word replaced. -/
def rawDraw (g : Prng) : Int × Prng :=
  let i := advance g.inext
  let j := advance g.inextp
  let v := drawValue (g.read i) (g.read j)
  (v, { (g.write i v) with inext := i, inextp := j })

/-- Sample of rule R213: a raw draw as a Q31.32 fraction. -/
def sampleQ (p : Config.Params) (r : Int) : Except FaultCode Int :=
  divQ p.divRound (fromInt r) (fromInt mBig)

/-- The rescaled integer offset of rules R214 and R216: `mul(Sample(r), fromInt(range)) >> 32`. -/
def scaledDraw (p : Config.Params) (r range : Int) : Except FaultCode Int := do
  let f ← sampleQ p r
  pure (shr32 (mulQ f (fromInt range)))

/-- NEXT's draw (rule R212). -/
def nextDraw (g : Prng) : Except FaultCode (Word × Prng) :=
  let d := rawDraw g
  .ok (resultI32 d.1, d.2)

/-- NEXTMAX's operand check (rule R214). -/
def maxCheck (maxValue : Int) : Except FaultCode Unit :=
  if maxValue < 0 then .error .prngRange else .ok ()

/-- NEXTMAX's draw (rule R214). -/
def nextMaxDraw (p : Config.Params) (maxValue : Int) (g : Prng) : Except FaultCode (Word × Prng) := do
  let d := rawDraw g
  let v ← scaledDraw p d.1 maxValue
  pure (resultI32 v, d.2)

/-- The fraction LargeSample computes from its two raw draws (rule R215): an exact rational, rounded half away from
zero. -/
def largeFraction (r1 r2 : Int) : Int :=
  let v := if r2 % 2 = 0 then -r1 else r1
  let num := (v + (i32Max - 1)) * 4294967296
  let den := 2 * i32Max - 1
  (2 * num + den) / (2 * den)

/-- NEXTRANGE's operand check (rule R216). -/
def rangeCheck (minValue maxValue : Int) : Except FaultCode Unit :=
  if maxValue ≤ minValue then .error .prngRange else .ok ()

/-- NEXTRANGE's draw (rule R216): one raw draw where the range fits a 32-bit signed integer, else LargeSample's two. -/
def nextRangeDraw (p : Config.Params) (minValue maxValue : Int) (g : Prng) : Except FaultCode (Word × Prng) :=
  let range := maxValue - minValue
  let d1 := rawDraw g
  if range ≤ i32Max then do
    let v ← scaledDraw p d1.1 range
    pure (resultI32 (minValue + v), d1.2)
  else
    let d2 := rawDraw d1.2
    .ok (resultI32 (minValue + shr32 (largeFraction d1.1 d2.1 * range)), d2.2)

/-- Uniform of rule R221: the Box–Muller input scaling. -/
def uniformQ (p : Config.Params) (r : Int) : Except FaultCode Int := do
  let f ← divQ p.divRound (fromInt r) (fromInt i32Max)
  pure (subQ qOne f)

/-- The Gaussian sample of two raw draws (rule R220): `sqrt(−2·ln u1) · sin(2π·u2)`. -/
def gaussValue (p : Config.Params) (r1 r2 : Int) : Except FaultCode Int := do
  let u1 ← uniformQ p r1
  let u2 ← uniformQ p r2
  let l ← lnQ p u1
  let rad ← sqrtQ (mulQ (fromInt (-2)) l)
  let sine ← sinCore p (mulQ p.twoPi u2)
  pure (mulQ rad sine)

/-- GAUSS's draw (rule R220): the first raw draw feeds the radius, the second the angle. -/
def gaussDraw (p : Config.Params) (g : Prng) : Except FaultCode (Word × Prng) := do
  let d1 := rawDraw g
  let d2 := rawDraw d1.2
  let v ← gaussValue p d1.1 d2.1
  pure (resultQ v, d2.2)

/-- SEED (rule R201): legal in either phase. -/
def execSeed (seed : Int) (s : State) : Host.Outcome State Fault Refusal :=
  computeCommand s (.ok ({ s with prng := seedContext seed, seeded := true }, resultZero))

/-- NEXT (rule R212). -/
def execNext (s : State) : Host.Outcome State Fault Refusal :=
  computeDraw s (.ok ()) nextDraw

/-- NEXTMAX (rule R214): PRNG_RANGE is checked before NOT_SEEDED. -/
def execNextmax (maxValue : Int) (s : State) : Host.Outcome State Fault Refusal :=
  computeDraw s (maxCheck maxValue) (nextMaxDraw params maxValue)

/-- NEXTRANGE (rule R216): PRNG_RANGE is checked before NOT_SEEDED. -/
def execNextrange (minValue maxValue : Int) (s : State) : Host.Outcome State Fault Refusal :=
  computeDraw s (rangeCheck minValue maxValue) (nextRangeDraw params minValue maxValue)

/-- GAUSS (rule R220). -/
def execGauss (s : State) : Host.Outcome State Fault Refusal :=
  computeDraw s (.ok ()) (gaussDraw params)

end Sys2Proof.Machine
end

