-- ==== Sys2Proof/Machine/Dispatch.lean ====
section
/-! DEFINITION. The dispatch of a command to its meaning: one arm per constructor of `Instr`. -/

namespace Sys2Proof.Machine

def exec (i : Instr) (s : State) : Host.Outcome State Fault Refusal :=
  match i with
  | .nop => Sys2Proof.Machine.execNop s
  | .rdstatus => Sys2Proof.Machine.execRdstatus s
  | .clrfault => Sys2Proof.Machine.execClrfault s
  | .rdprng idx => Sys2Proof.Machine.execRdprng idx s
  | .wrprng idx value => Sys2Proof.Machine.execWrprng idx value s
  | .add a b => Sys2Proof.Machine.execAdd a b s
  | .sub a b => Sys2Proof.Machine.execSub a b s
  | .mul a b => Sys2Proof.Machine.execMul a b s
  | .div a b => Sys2Proof.Machine.execDiv a b s
  | .floor x => Sys2Proof.Machine.execFloor x s
  | .round x => Sys2Proof.Machine.execRound x s
  | .sign x => Sys2Proof.Machine.execSign x s
  | .abs x => Sys2Proof.Machine.execAbs x s
  | .lut j => Sys2Proof.Machine.execLut j s
  | .sin x => Sys2Proof.Machine.execSin x s
  | .cos x => Sys2Proof.Machine.execCos x s
  | .sqrt x => Sys2Proof.Machine.execSqrt x s
  | .log2 x => Sys2Proof.Machine.execLog2 x s
  | .ln x => Sys2Proof.Machine.execLn x s
  | .exp x => Sys2Proof.Machine.execExp x s
  | .seed sd => Sys2Proof.Machine.execSeed sd s
  | .next => Sys2Proof.Machine.execNext s
  | .nextmax hi => Sys2Proof.Machine.execNextmax hi s
  | .nextrange lo hi => Sys2Proof.Machine.execNextrange lo hi s
  | .gauss => Sys2Proof.Machine.execGauss s

end Sys2Proof.Machine
end

