-- ==== Sys2Proof/Machine/Issue.lean ====
section
/-! DEFINITION. How the host drives the block: the execution of the triple in the port registers (`spec/30_encoding.md`
rule R80), and the host's next event (`spec/70_reset_and_hazards.md` rule R340). -/

namespace Sys2Proof.Machine

/-- The block executes the triple in its port registers: the decoded command, or ILLEGAL_COMMAND, which is decided
before everything else (`spec/60_exceptions.md` rule R302). -/
def runPorts (s : State) : Host.Outcome State Fault Refusal :=
  match decode s.ports with
  | .ok i => exec i s
  | .error _ => .next (s.raise .illegalCommand)

/-- The host's next event. With none the block waits for the host (`spec/20_memory.md` rule R65,
`spec/70_reset_and_hazards.md` rule R345: it never stops on its own; log entry 1). -/
def hostStep (s : State) : Host.Outcome State Fault Refusal :=
  match s.host with
  | [] => .next s
  | .command c :: rest => runPorts (s.latch c rest)
  | .reset :: rest => .next (State.resetKeeping rest)
  | .resetDuring _ :: rest => .next (State.resetKeeping rest)

/-- The host's list of events with one more command in front. -/
def State.withCommand (s : State) (c : Command) : State :=
  { s with host := .command c :: s.host }

end Sys2Proof.Machine
end

