-- ==== Sys2Proof/Machine/Step.lean ====
section
/-! DEFINITION. One step of the block, and where the host's checks place a command. -/

namespace Sys2Proof.Machine

/-- One step: the host's next event (`spec/30_encoding.md` rule R80). -/
def step (s : State) : Host.Outcome State Fault Refusal := hostStep s

/-- `s` with the triple whose bits are `w` as the host's next command (log entry 1). -/
def State.withFetchWord (s : State) (nbits w : Nat) : State := s.withCommand (commandOfBits nbits w)

end Sys2Proof.Machine
end

