-- ==== Sys2Proof/Machine/Assembler.lean ====
section
/-! DEFINITION. The textual form of commands (`spec/30_encoding.md` rule R88) and its pseudo-instructions (rule R89): from
one line of characters to the command triple. The conversion happens here, not in the block. -/

namespace Sys2Proof

/-- The operand kinds of rule R82, as the table of rule R84 lists them. -/
inductive OperandKind where
  /-- A Q31.32 raw value. -/
  | q
  /-- A 32-bit integer. -/
  | i32
  /-- A 64-bit index. -/
  | idx
  /-- A 64-bit integer. -/
  | int
  /-- The word is not read. -/
  | none
deriving DecidableEq, Repr

/-- An operand of rule R88's grammar. -/
inductive AsmOperand where
  /-- A raw integer value. -/
  | integer (v : Int)
  /-- A Q31.32 literal: the decimal `digits / scale`, `scale` a power of ten, negated if `negative`. -/
  | fixed (negative : Bool) (digits scale : Nat)
deriving DecidableEq, Repr

namespace Machine

/-- The columns OP, mnemonic, A and B of rule R84. -/
def opcodeTable : List (String × BitVec 8 × OperandKind × OperandKind) :=
  [("NOP", 0x00#8, .none, .none), ("RDSTATUS", 0x01#8, .none, .none), ("CLRFAULT", 0x02#8, .none, .none),
   ("RDPRNG", 0x03#8, .idx, .none), ("WRPRNG", 0x04#8, .idx, .int),
   ("ADD", 0x10#8, .q, .q), ("SUB", 0x11#8, .q, .q), ("MUL", 0x12#8, .q, .q), ("DIV", 0x13#8, .q, .q),
   ("FLOOR", 0x14#8, .q, .none), ("ROUND", 0x15#8, .q, .none), ("SIGN", 0x16#8, .q, .none), ("ABS", 0x17#8, .q, .none),
   ("LUT", 0x20#8, .idx, .none), ("SIN", 0x21#8, .q, .none), ("COS", 0x22#8, .q, .none), ("SQRT", 0x23#8, .q, .none),
   ("LOG2", 0x24#8, .q, .none), ("LN", 0x25#8, .q, .none), ("EXP", 0x26#8, .q, .none),
   ("SEED", 0x30#8, .i32, .none), ("NEXT", 0x31#8, .none, .none), ("NEXTMAX", 0x32#8, .i32, .none),
   ("NEXTRANGE", 0x33#8, .i32, .i32), ("GAUSS", 0x34#8, .none, .none)]

/-- The value of a hexadecimal digit. -/
def digitValue (c : Char) : Option Nat :=
  let n := c.toNat
  if 48 ≤ n ∧ n ≤ 57 then some (n - 48)
  else if 97 ≤ n ∧ n ≤ 102 then some (n - 87)
  else if 65 ≤ n ∧ n ≤ 70 then some (n - 55)
  else none

/-- The value of a string of digits in a base, after the value `acc` of the digits before it. -/
def digitsFrom (base : Nat) : Nat → List Char → Option Nat
  | acc, [] => some acc
  | acc, c :: cs =>
    match digitValue c with
    | some d => if d < base then digitsFrom base (base * acc + d) cs else none
    | none => none

/-- A non-empty string of digits in a base. -/
def digits (base : Nat) (cs : List Char) : Option Nat :=
  if cs.isEmpty then none else digitsFrom base 0 cs

/-- `integer` without its sign (rule R88). -/
def parseNat (cs : List Char) : Option Nat :=
  match cs with
  | '0' :: 'x' :: hex => digits 16 hex
  | _ => digits 10 cs

/-- `fixed` without its sign and its final q (rule R88): the digits as one number, and the power of ten below it. -/
def parseDecimal (cs : List Char) : Option (Nat × Nat) :=
  let whole := cs.takeWhile (· ≠ '.')
  match cs.dropWhile (· ≠ '.') with
  | [] => (digits 10 whole).map fun n => (n, 1)
  | _ :: frac =>
    match digits 10 whole, digits 10 frac with
    | some n, some f => some (n * 10 ^ frac.length + f, 10 ^ frac.length)
    | _, _ => none

/-- `operand` of rule R88's grammar. -/
def parseOperand (cs : List Char) : Option AsmOperand :=
  let negative := cs.head? = some '-'
  let body := if negative then cs.tail else cs
  if body.getLast? = some 'q' then
    (parseDecimal body.dropLast).map fun d => .fixed negative d.1 d.2
  else (parseNat body).map fun n => .integer (if negative then -(n : Int) else n)

/-- The integer nearest `n / d`, ties to even (rule R88). -/
def nearestEven (n d : Nat) : Nat :=
  if 2 * (n % d) < d then n / d
  else if 2 * (n % d) > d then n / d + 1
  else if n / d % 2 = 0 then n / d else n / d + 1

/-- The integer an operand stands for (rule R88): a `fixed` operand is the integer nearest its value times 2^32. -/
def asmValue : AsmOperand → Int
  | .integer v => v
  | .fixed negative n scale =>
    let m : Int := nearestEven (n * 4294967296) scale
    if negative then -m else m

/-- The range the assembler accepts for an operand of a kind (rule R88): 32 bits for I32; 64 bits for every other word
(for an integer operand DESIGN CHOICE, log entry 6: the rule states the 64-bit limit of a fixed operand only). -/
def operandFits (k : OperandKind) (v : Int) : Bool :=
  match k with
  | .i32 => fits32 v
  | .q | .idx | .int | .none => fits64 v

/-- The word an operand is written as (rule R88); an omitted operand is written as 0. -/
def assembleWord (k : OperandKind) (o : Option AsmOperand) : Option Word :=
  match o with
  | none => some noOperand
  | some o => if operandFits k (asmValue o) then some (operandWord (asmValue o)) else none

/-- The pseudo-instructions of rule R89; every other line stands as it is. -/
def expandPseudo (name : List Char) (ops : List AsmOperand) : List Char × List AsmOperand :=
  match ops with
  | [x] =>
    if name = "NEG".toList then ("SUB".toList, [.integer 0, x])
    else if name = "SQR".toList then ("MUL".toList, [x, x])
    else (name, ops)
  | [] =>
    if name = "RDINEXT".toList then ("RDPRNG".toList, [.integer 56])
    else if name = "RDINEXTP".toList then ("RDPRNG".toList, [.integer 57])
    else if name = "UNSEED".toList then ("WRPRNG".toList, [.integer 58, .integer 0])
    else (name, ops)
  | _ => (name, ops)

/-- The triple of a mnemonic of rule R84 with at most two operands: the first goes to A, the second to B (rule R88). -/
def assembleCommand (name : List Char) (ops : List AsmOperand) : Option Command :=
  match opcodeTable.find? (fun row => row.1.toList = name) with
  | none => none
  | some (_, op, ka, kb) =>
    if ops.length > 2 then none
    else
      match assembleWord ka ops[0]?, assembleWord kb ops[1]? with
      | some a, some b => some { cmd := op.setWidth 32, a := a, b := b }
      | _, _ => none

/-- The characters of a line without its spaces on either side. -/
def trimSpaces (cs : List Char) : List Char :=
  ((cs.dropWhile (· = ' ')).reverse.dropWhile (· = ' ')).reverse

/-- The operand texts of a line: what stands between its commas. -/
def splitCommas : List Char → List (List Char)
  | [] => [[]]
  | c :: cs =>
    match splitCommas cs with
    | [] => [[c]]
    | w :: ws => if c = ',' then [] :: w :: ws else (c :: w) :: ws

/-- All the operands of a line, if each one parses. -/
def parseOperands : List (List Char) → Option (List AsmOperand)
  | [] => some []
  | w :: ws =>
    match parseOperand (trimSpaces w), parseOperands ws with
    | some o, some os => some (o :: os)
    | _, _ => none

/-- One line of rule R88: mnemonic, operands, comment. -/
def assemble (line : List Char) : Option Command :=
  let text := trimSpaces (line.takeWhile (· ≠ ';'))
  let name := text.takeWhile (· ≠ ' ')
  let rest := trimSpaces (text.dropWhile (· ≠ ' '))
  match (if rest.isEmpty then some [] else parseOperands (splitCommas rest)) with
  | none => none
  | some ops =>
    let e := expandPseudo name ops
    assembleCommand e.1 e.2

end Machine

end Sys2Proof
end

