-- ==== Sys2Proof/Machine/Run.lean ====
section
/-! DEFINITION. Whole runs as the spec describes them: the block as a function of the command triple and the state
(`spec/30_encoding.md` rule R80), the composition of commands in issue order (`spec/20_memory.md` rule R66), and what a
model reports at the end of a run (`spec/70_reset_and_hazards.md` rule R345). -/

namespace Sys2Proof.Machine

/-- The function of rule R80 without its outputs: the state after the host has issued one triple. No command stops the
block, so the last arm is never taken. -/
def issue (c : Command) (s : State) : State :=
  match runPorts (s.latch c s.host) with
  | .next t => t
  | _ => s

/-- The host's program, issued in order (rule R66): the state after it, and one (STATUS, RESULT) pair per command. -/
def runProgram : List Command → State → State × List (Code × Word)
  | [], s => (s, [])
  | c :: rest, s =>
    let t := issue c s
    let out := runProgram rest t
    (out.1, (t.status, t.result) :: out.2)

/-- What a model reports at the end of a run (rule R345): STATUS, FAULT, RESULT, SEEDED, the PRNG context, and the list
of (STATUS, RESULT) pairs. -/
def report (program : List Command) (s : State) : (Code × Code × Word) × (Bool × Prng) × List (Code × Word) :=
  let out := runProgram program s
  ((out.1.status, out.1.fault, out.1.result), (out.1.seeded, out.1.prng), out.2)

end Sys2Proof.Machine
end

