-- ==== Sys2Proof/Safety.lean ====
section
/-! DEFINITION. What the claims speak of: the legal status and fault codes, the generator's invariant, the classes of
commands the spec names, and the STATUS each command is to end with. -/

namespace Sys2Proof.Machine

/-- The status registers hold codes the block produces (`spec/60_exceptions.md` rule R300: STATUS is OK, a fault code or
BLOCKED; FAULT is none or a fault code), and an outcome other than OK leaves FAULT set (rules R303, R305). -/
def CodesLegal (s : State) : Prop :=
  s.status.toNat ≤ 9 ∧ s.fault.toNat ≤ 8 ∧ (s.status ≠ 0x00#8 → s.fault ≠ 0x00#8)

/-- The §3 invariant of `spec/10_state.md` rule R28 on the words a draw can read: `S[1..55] ∈ [0, MBIG)`. -/
def SeedArrayInRange (g : Prng) : Prop :=
  ∀ i : Fin 56, i ≠ 0 → 0 ≤ g.read i ∧ g.read i < 2147483647

/-- Both cursors lie in [1, 55] (rule R28). -/
def CursorsDrawn (g : Prng) : Prop := 1 ≤ g.inext.val ∧ 1 ≤ g.inextp.val

/-- The commands that are refused while FAULT ≠ 0 (rule R305): all but NOP, RDSTATUS, CLRFAULT, RDPRNG and WRPRNG. -/
def isCompute : Instr → Bool
  | .nop | .rdstatus | .clrfault | .rdprng _ | .wrprng _ _ => false
  | .add _ _ | .sub _ _ | .mul _ _ | .div _ _ | .floor _ | .round _ | .sign _ | .abs _ => true
  | .lut _ | .sin _ | .cos _ | .sqrt _ | .log2 _ | .ln _ | .exp _ => true
  | .seed _ | .next | .nextmax _ | .nextrange _ _ | .gauss => true

/-- The draw commands (rule R24). -/
def isDraw : Instr → Bool
  | .next | .nextmax _ | .nextrange _ _ | .gauss => true
  | .nop | .rdstatus | .clrfault | .rdprng _ | .wrprng _ _ => false
  | .add _ _ | .sub _ _ | .mul _ _ | .div _ _ | .floor _ | .round _ | .sign _ | .abs _ => false
  | .lut _ | .sin _ | .cos _ | .sqrt _ | .log2 _ | .ln _ | .exp _ | .seed _ => false

/-- The fault a command raises, by the conditions of rule R301 in the order of rule R302, for a command that is not
BLOCKED and the block's own parameters. -/
def expectedFault (i : Instr) (s : State) : Option FaultCode :=
  match i with
  | .nop | .rdstatus | .clrfault => none
  | .rdprng idx => if idx < 0 ∨ 58 < idx then some .badStateAccess else none
  | .wrprng idx value =>
    if idx < 0 ∨ 58 < idx then some .badStateAccess
    else if (idx = 56 ∨ idx = 57) ∧ (value < 0 ∨ 55 < value) then some .badStateAccess
    else if idx = 58 ∧ value ≠ 0 ∧ value ≠ 1 then some .badStateAccess
    else none
  | .add _ _ | .sub _ _ | .mul _ _ | .floor _ | .round _ | .sign _ | .abs _ => none
  | .div _ b => if b = 0 then some .divByZero else none
  | .lut j => if j < 0 ∨ 255 < j then some .lutIndex else none
  | .sin _ | .cos _ | .exp _ | .seed _ => none
  | .sqrt x => if x < 0 then some .sqrtNegative else none
  | .log2 x | .ln x => if x ≤ 0 then some .logNonpositive else none
  | .next => if s.seeded then none else some .notSeeded
  | .nextmax maxValue =>
    if maxValue < 0 then some .prngRange else if s.seeded then none else some .notSeeded
  | .nextrange minValue maxValue =>
    if maxValue ≤ minValue then some .prngRange else if s.seeded then none else some .notSeeded
  | .gauss =>
    if s.seeded then (if (rawDraw s.prng).1 = -1 then some .sqrtNegative else none) else some .notSeeded

/-- The STATUS the triple in the ports ends with, by the order of rule R302: illegal, then blocked, then the command's
own faults, then OK. -/
def expectedStatus (s : State) : Code :=
  match decode s.ports with
  | .error _ => 0x01#8
  | .ok i =>
    if isCompute i && s.fault ≠ 0x00#8 then 0x09#8
    else
      match expectedFault i s with
      | some c => c.code
      | none => 0x00#8

end Sys2Proof.Machine
end

