-- ==== Sys2Proof/Certificates/Slice0/Obligations.lean ====
section
/-! DEFINITION. The statements for the provers. Each docstring names the rule of the spec it formalises. A statement about a
command quantifies over the operand WORDS the host writes, so it covers every operand its kind admits, and gives the
whole next state: a field that the record update does not name is unchanged. -/

namespace Sys2Proof.Claims

/-- The clamp to the 64-bit range, written with max and min. -/
def clamp64 (v : Int) : Int := max (-9223372036854775808) (min 9223372036854775807 v)

/-- The low 32 bits of a word as a signed integer (kind I32 of rule R82). -/
def low32 (w : Word) : Int := (w.extractLsb' 0 32).toInt

/-- The 25 legal command words of rule R84. -/
def legalWords : List CmdWord :=
  [0x00#32, 0x01#32, 0x02#32, 0x03#32, 0x04#32,
   0x10#32, 0x11#32, 0x12#32, 0x13#32, 0x14#32, 0x15#32, 0x16#32, 0x17#32,
   0x20#32, 0x21#32, 0x22#32, 0x23#32, 0x24#32, 0x25#32, 0x26#32,
   0x30#32, 0x31#32, 0x32#32, 0x33#32, 0x34#32]

/-- What RDPRNG returns for a state index. -/
def readBack (s : Machine.State) (k : Nat) : Word :=
  match Machine.exec (.rdprng k) s with
  | .next t => t.result
  | _ => 0#64

/-- The state after WRPRNG has written saved elements back, in the order of a list of state indices. -/
def writeBack (saved : Nat → Word) : List Nat → Machine.State → Machine.State
  | [], t => t
  | k :: rest, t =>
    match Machine.exec (.wrprng k (saved k).toInt) t with
    | .next t' => writeBack saved rest t'
    | _ => t

/-- "normalise" of rule R201, in 32 bits. -/
def norm32 (v : Int) : Int := if v < 0 then Int.bmod (v + 2147483647) 4294967296 else v

/-- One fill step of rule R201 on a list of integers, with `mj` and `mk`. -/
def fillStep (st : List Int × Int × Int) (i : Nat) : List Int × Int × Int :=
  (st.1.set (21 * i % 55) st.2.2, st.2.2, norm32 (Int.bmod (st.2.1 - st.2.2) 4294967296))

/-- One mixing step of rule R201 on a list of integers, in place. -/
def mixOne (l : List Int) (i : Nat) : List Int :=
  l.set i (norm32 (Int.bmod (l.getD i 0 - l.getD (1 + (i + 30) % 55) 0) 4294967296))

/-- The 56 words of rule R201's seed table as integers. -/
def seedTable (seed : Int) : List Int :=
  let sub := if seed = -2147483648 then 2147483647 else |seed|
  let mj := 161803398 - sub
  let filled := ((List.range' 1 54).foldl fillStep ((List.replicate 56 0).set 55 mj, mj, 1)).1
  let mixed := (List.range 4).foldl (fun l _ => (List.range' 1 55).foldl mixOne l) filled
  mixed.set 0 0

/-- The cursor after an advance (rule R211). -/
def cursorAfter (c : Nat) : Nat := if c + 1 ≥ 56 then 1 else c + 1

/-- The value of a raw draw (rule R211), with 32-bit wraps written as balanced residues. -/
def drawnValue (x y : Int) : Int :=
  let v := Int.bmod (x - y) 4294967296
  norm32 (if v = 2147483647 then v - 1 else v)

/-- The nearest index and error of a table position: nearest integer, ties to even (rule R151, step 2). -/
def nearestEven (pos : Int) : Int :=
  if 2 * (pos % 4294967296) < 4294967296 then pos / 4294967296
  else if 2 * (pos % 4294967296) > 4294967296 then pos / 4294967296 + 1
  else if pos / 4294967296 % 2 = 0 then pos / 4294967296 else pos / 4294967296 + 1

/-- The two table indices of rule R151 and the value it returns, computed on unbounded integers without any clamp, with
the default constants of rule R30. -/
def sinSpec (x : Int) : Int × Int × Int :=
  let r2 := x % 26986075409
  let rp := r2 % 13493037704
  let flipped := decide (6746518852 ≤ rp)
  let rq := if flipped then rp - 6746518852 else rp
  let pos := rq * 697236581115 / 4294967296
  let k := nearestEven pos
  let err := pos - k * 4294967296
  let n := if flipped then 255 - k else k
  let m := if flipped then 255 - k - err.sign else k + err.sign
  let near := Machine.romEntry Machine.params.sineTable n.toNat
  let adj := Machine.romEntry Machine.params.sineTable m.toNat
  let delta := err * |near - adj| / 4294967296
  let v := if flipped then near - delta else near + delta
  (n, m, if 13493037704 ≤ r2 then -v else v)

/-- The fractional bits of LOG2 from a mantissa in [ONE, 2·ONE), most significant first (rule R170). -/
def log2Fraction : Nat → Int → Int
  | 0, _ => 0
  | k + 1, z =>
    let z2 := z * z / 4294967296
    if z2 ≥ 8589934592 then 2 ^ k + log2Fraction k (z2 / 2) else log2Fraction k z2

/-- The terms of EXP's series for a positive x (rule R180): each is `div(mul(term, x), fromInt(n))`. -/
def expTerm (x : Int) : Nat → Int
  | 0 => 4294967296
  | n + 1 => (2 * clamp64 (expTerm x n * x / 4294967296) + (n + 1)) / (2 * (n + 1))

/-- The partial sums of EXP's series (rule R180). -/
def expSum (x : Int) : Nat → Int
  | 0 => 4294967296
  | n + 1 => clamp64 (expSum x n + expTerm x (n + 1))

/-- `f` is `r / MBIG` as a Q31.32 value rounded to nearest (rules R213 and R221; MBIG is odd, so no tie exists). -/
def IsFraction (r f : Int) : Prop := 2 * |r * 4294967296 - f * 2147483647| < 2147483647

/-- `d` is the large-range fraction of two raw draws, rounded to nearest (rule R215; the divisor is odd). -/
def IsLargeFraction (r1 r2 d : Int) : Prop :=
  2 * |((if r2 % 2 = 0 then -r1 else r1) + 2147483646) * 4294967296 - d * 4294967293| < 4294967293

end Sys2Proof.Claims

section

open Sys2Proof Sys2Proof.Machine Sys2Proof.Claims

/-! ## Encoding -/

/-- Rules R81, R82 and R84: decoding the encoding of a well-formed command gives it back, every operand included. -/
def Obligations.DecodeOfEncode : Prop :=
  ∀ i : Instr, i.wf = true → decode (encode i) = .ok i

/-- Rules R85 and R87: the decoder is total; the legal command words are the 25 of rule R84, and the command they give
has that word; any other word raises ILLEGAL_COMMAND and does nothing else (the ports hold the triple the host wrote). -/
def Obligations.IllegalWordsFaultAndLegalWordsDecode : Prop :=
  ∀ c : Command,
    (c.cmd ∈ legalWords → ∃ i, decode c = .ok i ∧ c.cmd = (opcode i).setWidth 32) ∧
    (c.cmd ∉ legalWords → ∀ (s : State) (rest : List HostEvent), s.host = .command c :: rest →
      step s = .next { s with
        cmd := c.cmd, a := c.a, b := c.b, host := rest, status := 0x01#8,
        fault := if s.fault = 0x00#8 then 0x01#8 else s.fault })

/-- Rule R82: every operand a decoded command carries is a value of its kind. -/
def Obligations.DecodedOperandsAreInRange : Prop :=
  ∀ (c : Command) (i : Instr), decode c = .ok i → i.wf = true

/-- Rule R82: an I32 operand is the 32-bit two's-complement value of the low half of its word, whatever bits [63:32]
are. -/
def Obligations.UpperHalfOfI32OperandIgnored : Prop :=
  ∀ a b : Word,
    (∃ v : Int, decode ⟨0x30#32, a, b⟩ = .ok (.seed v) ∧ -2147483648 ≤ v ∧ v ≤ 2147483647 ∧
      v % 4294967296 = a.toNat % 4294967296) ∧
    (∃ v : Int, decode ⟨0x32#32, a, b⟩ = .ok (.nextmax v) ∧ -2147483648 ≤ v ∧ v ≤ 2147483647 ∧
      v % 4294967296 = a.toNat % 4294967296) ∧
    (∃ v w : Int, decode ⟨0x33#32, a, b⟩ = .ok (.nextrange v w) ∧ -2147483648 ≤ v ∧ v ≤ 2147483647 ∧
      -2147483648 ≤ w ∧ w ≤ 2147483647 ∧
      v % 4294967296 = a.toNat % 4294967296 ∧ w % 4294967296 = b.toNat % 4294967296)

/-- A few words written out from rule R84 (a sanity statement). -/
def Obligations.WrittenOutWordsDecode : Prop :=
  decode ⟨0x00000010#32, 0x8000000000000000#64, 0xFFFFFFFFFFFFFFFF#64⟩ =
      .ok (.add (-9223372036854775808) (-1)) ∧
    decode ⟨0x00000004#32, 0x0000000000000039#64, 0xFFFFFFFFFFFFFFFF#64⟩ = .ok (.wrprng 57 (-1)) ∧
    decode ⟨0x00000020#32, 0x0000000100000000#64, 0x0000000000000000#64⟩ = .ok (.lut 4294967296) ∧
    decode ⟨0x00000033#32, 0xFFFFFFFFFFFFFFF6#64, 0x000000000000000A#64⟩ = .ok (.nextrange (-10) 10) ∧
    decode ⟨0x00000110#32, 0x0000000100000000#64, 0x0000000100000000#64⟩ = .error .reservedBits ∧
    decode ⟨0x00000027#32, 0x0000000000000000#64, 0x0000000000000000#64⟩ = .error .reservedOpcode

/-! ## The step, reset and runs -/

/-- Rule R80: when the host's next event is a triple that decodes to i, the step writes the triple into the ports and is
exec of i. -/
def Obligations.StepRunsTheDecodedCommand : Prop :=
  ∀ (s : State) (c : Command) (rest : List HostEvent) (i : Instr),
    s.host = .command c :: rest → decode c = .ok i →
      step s = exec i { s with cmd := c.cmd, a := c.a, b := c.b, host := rest }

/-- THE MODEL'S CHOICE (log entry 1), after rules R65 and R345: with no event of the host the block waits, and a run of
the model is never stopped by a step. -/
def Obligations.StepWaitsForTheHostAndNeverStops : Prop :=
  (∀ s : State, s.host = [] → step s = .next s) ∧ ∀ s : State, ∃ t, step s = .next t

/-- Rules R35 and R340: what reset leaves, from any state, whether it arrives between commands or during one (that
command has no effect). CMD, A and B are unspecified after reset and nothing is said of them. -/
def Obligations.ResetPutsEveryElementInItsResetValue : Prop :=
  ∀ (s : State) (e : HostEvent) (rest : List HostEvent),
    s.host = e :: rest → (e = .reset ∨ ∃ c, e = .resetDuring c) →
      ∃ t, step s = .next t ∧ t.result = 0#64 ∧ t.status = 0x00#8 ∧ t.fault = 0x00#8 ∧ t.seeded = false ∧
        (∀ i : Fin 56, t.prng.seedArray[i] = 0#32) ∧ t.prng.inext = 0 ∧ t.prng.inextp = 0 ∧ t.host = rest

/-- Rules R23, R300, R303 and R305: every step keeps the status registers legal. -/
def Obligations.StepKeepsCodesLegal : Prop :=
  ∀ s t : State, CodesLegal s → step s = .next t → CodesLegal t

/-- The reset state meets the invariant of `StepKeepsCodesLegal`. -/
def Obligations.ResetCodesAreLegal : Prop := CodesLegal State.reset

/-- Rule R66: the block's state after a list of commands is the composition of the command rules in issue order, and
the steps of the machine compute it. That the host's program stands in the state as a list is THE MODEL'S CHOICE (log
entry 1). -/
def Obligations.RunIsCompositionInIssueOrder : Prop :=
  (∀ (l : List Command) (s : State), s.host = [] →
    Host.Core.run Sys2Proof.core l.length ({ s with host := l.map HostEvent.command } : State) =
      .next (runProgram l s).1) ∧
  ∀ (l m : List Command) (s : State),
    runProgram (l ++ m) s =
      ((runProgram m (runProgram l s).1).1, (runProgram l s).2 ++ (runProgram m (runProgram l s).1).2)

/-! ## Faults and blocking -/

/-- Rules R301 and R302: the STATUS of every triple, from every state: illegal, then blocked, then the command's own
faults by the conditions of rule R301, then OK. -/
def Obligations.StatusOfEveryCommand : Prop :=
  ∀ s : State, ∃ t, runPorts s = .next t ∧ t.status = expectedStatus s

/-- Rule R303: a command that does not end OK writes STATUS, and FAULT only if it was clear and the outcome is a fault;
nothing else changes. -/
def Obligations.FailingCommandHasNoOtherEffect : Prop :=
  ∀ s t : State, (runPorts s = .next t ∨ ∃ i, exec i s = .next t) → t.status ≠ 0x00#8 →
    t = { s with
      status := t.status
      fault := if t.status ≠ 0x09#8 ∧ s.fault = 0x00#8 then t.status else s.fault }

/-- Rule R305: while FAULT ≠ 0 every command but NOP, RDSTATUS, CLRFAULT, RDPRNG and WRPRNG is refused with BLOCKED, and
those five never are. -/
def Obligations.ComputeCommandsAreBlockedWhileFaultIsSet : Prop :=
  ∀ (i : Instr) (s : State),
    (isCompute i = true → s.fault ≠ 0x00#8 → exec i s = .next { s with status := 0x09#8 }) ∧
    (isCompute i = false → ∀ t, exec i s = .next t → t.status ≠ 0x09#8)

/-- Rule R23 (its writes): FAULT, once set, changes only by CLRFAULT; while it is clear it takes the code of a fault. -/
def Obligations.FaultIsStickyUntilClrfault : Prop :=
  ∀ (i : Instr) (s t : State), exec i s = .next t →
    (s.fault ≠ 0x00#8 → i ≠ .clrfault → t.fault = s.fault) ∧
    (s.fault = 0x00#8 → t.fault = t.status) ∧
    (i = .clrfault → t.fault = 0x00#8)

/-- Rules R24 and R64: the PRNG context changes only through SEED, WRPRNG and the draws, SEEDED only through SEED and
WRPRNG, and no command writes the ports CMD, A, B or the host's list. -/
def Obligations.OnlyNamedCommandsWriteTheContext : Prop :=
  ∀ (i : Instr) (s t : State), exec i s = .next t →
    (isDraw i = false → (∀ v, i ≠ .seed v) → (∀ k v, i ≠ .wrprng k v) → t.prng = s.prng) ∧
    ((∀ v, i ≠ .seed v) → (∀ v, i ≠ .wrprng 58 v) → t.seeded = s.seeded) ∧
    t.cmd = s.cmd ∧ t.a = s.a ∧ t.b = s.b ∧ t.host = s.host

/-- Rule R20: no command reads RESULT as an input: a command that ends OK gives the same next state whatever RESULT
held. -/
def Obligations.NoCommandReadsResult : Prop :=
  ∀ (i : Instr) (s t : State) (r : Word), exec i s = .next t → t.status = 0x00#8 →
    exec i { s with result := r } = .next t

/-! ## Control commands -/

/-- Rule R250. -/
def Obligations.NopWritesZeroAndOk : Prop :=
  ∀ (a b : Word) (s : State), decode ⟨0x00000000#32, a, b⟩ = .ok .nop ∧
    exec .nop s = .next { s with result := 0#64, status := 0x00#8 }

/-- Rule R251: the bit fields of RDSTATUS's result. -/
def Obligations.RdstatusReportsTheFaultState : Prop :=
  ∀ (a b : Word) (s : State), decode ⟨0x00000001#32, a, b⟩ = .ok .rdstatus ∧
    ∃ r : Word, exec .rdstatus s = .next { s with result := r, status := 0x00#8 } ∧
      r.extractLsb' 0 8 = s.fault ∧ r.getLsbD 8 = s.seeded ∧ r.extractLsb' 9 7 = 0#7 ∧
      r.extractLsb' 16 8 = s.status ∧ r.extractLsb' 24 40 = 0#40

/-- Rule R252. -/
def Obligations.ClrfaultClearsFault : Prop :=
  ∀ (a b : Word) (s : State), decode ⟨0x00000002#32, a, b⟩ = .ok .clrfault ∧
    exec .clrfault s = .next { s with fault := 0x00#8, result := 0#64, status := 0x00#8 }

/-- Rule R253: every index of RDPRNG. -/
def Obligations.RdprngReadsEveryElement : Prop :=
  ∀ (a b : Word) (s : State), decode ⟨0x00000003#32, a, b⟩ = .ok (.rdprng a.toInt) ∧
    (∀ k : Fin 56, a.toInt = k.val → exec (.rdprng a.toInt) s =
      .next { s with result := (s.prng.seedArray[k]).signExtend 64, status := 0x00#8 }) ∧
    (a.toInt = 56 → exec (.rdprng a.toInt) s =
      .next { s with result := BitVec.ofNat 64 s.prng.inext.val, status := 0x00#8 }) ∧
    (a.toInt = 57 → exec (.rdprng a.toInt) s =
      .next { s with result := BitVec.ofNat 64 s.prng.inextp.val, status := 0x00#8 }) ∧
    (a.toInt = 58 → exec (.rdprng a.toInt) s =
      .next { s with result := if s.seeded then 1#64 else 0#64, status := 0x00#8 }) ∧
    (a.toInt < 0 ∨ 58 < a.toInt → exec (.rdprng a.toInt) s =
      .next { s with status := 0x08#8, fault := if s.fault = 0x00#8 then 0x08#8 else s.fault })

/-- Rule R254: every index and value of WRPRNG. -/
def Obligations.WrprngWritesEveryElement : Prop :=
  ∀ (a b : Word) (s : State), decode ⟨0x00000004#32, a, b⟩ = .ok (.wrprng a.toInt b.toInt) ∧
    (∀ k : Fin 56, a.toInt = k.val → exec (.wrprng a.toInt b.toInt) s = .next { s with
      prng := { s.prng with seedArray := s.prng.seedArray.set k.val (b.extractLsb' 0 32) k.isLt }
      result := 0#64, status := 0x00#8 }) ∧
    (∀ k : Fin 56, a.toInt = 56 → b.toInt = k.val → exec (.wrprng a.toInt b.toInt) s =
      .next { s with prng := { s.prng with inext := k }, result := 0#64, status := 0x00#8 }) ∧
    (∀ k : Fin 56, a.toInt = 57 → b.toInt = k.val → exec (.wrprng a.toInt b.toInt) s =
      .next { s with prng := { s.prng with inextp := k }, result := 0#64, status := 0x00#8 }) ∧
    (∀ v : Bool, a.toInt = 58 → b.toInt = (if v then 1 else 0) → exec (.wrprng a.toInt b.toInt) s =
      .next { s with seeded := v, result := 0#64, status := 0x00#8 }) ∧
    (a.toInt < 0 ∨ 58 < a.toInt ∨ ((a.toInt = 56 ∨ a.toInt = 57) ∧ (b.toInt < 0 ∨ 55 < b.toInt)) ∨
        (a.toInt = 58 ∧ b.toInt ≠ 0 ∧ b.toInt ≠ 1) → exec (.wrprng a.toInt b.toInt) s =
      .next { s with status := 0x08#8, fault := if s.fault = 0x00#8 then 0x08#8 else s.fault })

/-- Rules R33 and R254: writing the 59 elements back in any order restores a saved context exactly, whatever the block
held in between. -/
def Obligations.WritingBackInAnyOrderRestoresTheContext : Prop :=
  ∀ (saved t : State) (order : List Nat),
    (∀ k ∈ order, k < 59) → (∀ k < 59, k ∈ order) →
      (writeBack (readBack saved) order t).prng = saved.prng ∧
      (writeBack (readBack saved) order t).seeded = saved.seeded

/-! ## Fixed point -/

/-- Rule R100. -/
def Obligations.AddSaturates : Prop :=
  ∀ (a b : Word) (s : State), s.fault = 0x00#8 →
    decode ⟨0x00000010#32, a, b⟩ = .ok (.add a.toInt b.toInt) ∧
    ∃ r : Word, exec (.add a.toInt b.toInt) s = .next { s with result := r, status := 0x00#8 } ∧
      r.toInt = clamp64 (a.toInt + b.toInt)

/-- Rule R101. -/
def Obligations.SubSaturates : Prop :=
  ∀ (a b : Word) (s : State), s.fault = 0x00#8 →
    decode ⟨0x00000011#32, a, b⟩ = .ok (.sub a.toInt b.toInt) ∧
    ∃ r : Word, exec (.sub a.toInt b.toInt) s = .next { s with result := r, status := 0x00#8 } ∧
      r.toInt = clamp64 (a.toInt - b.toInt)

/-- Rule R102, with the four partial products of the source's method (a signed high half, an unsigned low half). -/
def Obligations.MulIsTheClampedSumOfPartialProducts : Prop :=
  ∀ (a b : Word) (s : State), s.fault = 0x00#8 →
    decode ⟨0x00000012#32, a, b⟩ = .ok (.mul a.toInt b.toInt) ∧
    ∃ (r : Word) (ah bh al bl : Int),
      ah = (a.extractLsb' 32 32).toInt ∧ al = (a.extractLsb' 0 32).toNat ∧
      bh = (b.extractLsb' 32 32).toInt ∧ bl = (b.extractLsb' 0 32).toNat ∧
      a.toInt * b.toInt / 4294967296 = ah * bh * 4294967296 + ah * bl + al * bh + al * bl / 4294967296 ∧
      exec (.mul a.toInt b.toInt) s = .next { s with result := r, status := 0x00#8 } ∧
      r.toInt = clamp64 (a.toInt * b.toInt / 4294967296)

/-- Rule R103: the quotient is the one nearest the exact one, ties away from zero, clamped; a zero divisor faults; under
TRUNC the quotient is rounded toward zero. -/
def Obligations.DivRoundsHalfAwayAndFaultsOnZero : Prop :=
  ∀ (a b : Word) (s : State), s.fault = 0x00#8 →
    decode ⟨0x00000013#32, a, b⟩ = .ok (.div a.toInt b.toInt) ∧
    (b.toInt = 0 → exec (.div a.toInt b.toInt) s = .next { s with status := 0x02#8, fault := 0x02#8 }) ∧
    (b.toInt ≠ 0 → ∃ (r : Word) (q : Int),
      exec (.div a.toInt b.toInt) s = .next { s with result := r, status := 0x00#8 } ∧
      r.toInt = clamp64 q ∧
      2 * |a.toInt * 4294967296 - q * b.toInt| ≤ |b.toInt| ∧
      (2 * |a.toInt * 4294967296 - q * b.toInt| = |b.toInt| → |a.toInt * 4294967296| < |q * b.toInt|)) ∧
    (b.toInt ≠ 0 → divQ .trunc a.toInt b.toInt = .ok (clamp64 (Int.tdiv (a.toInt * 4294967296) b.toInt)))

/-- Rule R104: the mask, and what it equals in two's complement. -/
def Obligations.FloorMasksTheFraction : Prop :=
  ∀ (a b : Word) (s : State), s.fault = 0x00#8 →
    decode ⟨0x00000014#32, a, b⟩ = .ok (.floor a.toInt) ∧
    ∃ r : Word, exec (.floor a.toInt) s = .next { s with result := r, status := 0x00#8 } ∧
      r = a &&& 0xFFFFFFFF00000000#64 ∧ r.toInt = a.toInt / 4294967296 * 4294967296

/-- Rule R105, on the bits of A. -/
def Obligations.RoundBreaksTiesToEven : Prop :=
  ∀ (a b : Word) (s : State), s.fault = 0x00#8 →
    decode ⟨0x00000015#32, a, b⟩ = .ok (.round a.toInt) ∧
    ∃ (r i : Word) (f : Nat), f = (a.extractLsb' 0 32).toNat ∧ i = a &&& 0xFFFFFFFF00000000#64 ∧
      exec (.round a.toInt) s = .next { s with result := r, status := 0x00#8 } ∧
      (f < 0x80000000 → r = i) ∧
      (f > 0x80000000 → r.toInt = clamp64 (i.toInt + 4294967296)) ∧
      (f = 0x80000000 → i.getLsbD 32 = false → r = i) ∧
      (f = 0x80000000 → i.getLsbD 32 = true → r.toInt = clamp64 (i.toInt + 4294967296))

/-- Rule R106. -/
def Obligations.SignIsAnInteger : Prop :=
  ∀ (a b : Word) (s : State), s.fault = 0x00#8 →
    decode ⟨0x00000016#32, a, b⟩ = .ok (.sign a.toInt) ∧
    ∃ r : Word, exec (.sign a.toInt) s = .next { s with result := r, status := 0x00#8 } ∧ r.toInt = a.toInt.sign

/-- Rule R107, with the source's branchless form. -/
def Obligations.AbsSaturatesAtMin : Prop :=
  ∀ (a b : Word) (s : State), s.fault = 0x00#8 →
    decode ⟨0x00000017#32, a, b⟩ = .ok (.abs a.toInt) ∧
    ∃ r : Word, exec (.abs a.toInt) s = .next { s with result := r, status := 0x00#8 } ∧
      (a = 0x8000000000000000#64 → r = 0x7FFFFFFFFFFFFFFF#64) ∧
      (a ≠ 0x8000000000000000#64 → r.toInt = |a.toInt| ∧
        r = (a + a.sshiftRight 63) ^^^ a.sshiftRight 63)

/-- Rule R108: MUL128 is the exact floored product, and where it lies in [MIN, MAX] it equals MUL. -/
def Obligations.WideProductEqualsMulInRange : Prop :=
  ∀ a b : Int, mul128 a b = a * b / 4294967296 ∧
    (-9223372036854775808 ≤ a * b / 4294967296 → a * b / 4294967296 ≤ 9223372036854775807 →
      mulQ a b = mul128 a b)

/-! ## Sine -/

/-- Rule R140. -/
def Obligations.LutReadsTheRom : Prop :=
  ∀ (a b : Word) (s : State), s.fault = 0x00#8 →
    decode ⟨0x00000020#32, a, b⟩ = .ok (.lut a.toInt) ∧
    (∀ k : Nat, k < 256 → a.toInt = k → exec (.lut a.toInt) s =
      .next { s with result := BitVec.ofInt 64 (sineRom.getD k 0), status := 0x00#8 }) ∧
    (a.toInt < 0 ∨ 255 < a.toInt → exec (.lut a.toInt) s = .next { s with status := 0x06#8, fault := 0x06#8 })

/-- Rule R142 for the default table, with its checksum (rule R141). -/
def Obligations.DefaultSineTableHasItsProperties : Prop :=
  sineRom.length = 256 ∧ sineRom.sum = 699381859989 ∧ sineRom.getD 0 1 = 0 ∧ sineRom.getD 255 0 = 4294967296 ∧
    ∀ k < 255, 0 ≤ sineRom.getD k (-1) ∧ sineRom.getD (k + 1) 0 ≤ 4294967296 ∧
      81487 ≤ sineRom.getD (k + 1) 0 - sineRom.getD k 0 ∧
      sineRom.getD (k + 1) 0 - sineRom.getD k 0 ≤ 26456769

/-- Rule R150: TableRead's check, with any parameters; SinCore never faults with the default parameters; with other
parameters it can. -/
def Obligations.TableReadFaultsOnlyOutsideTheTable : Prop :=
  (∀ (p : Config.Params) (i : Int),
    (i < 0 ∨ 255 < i → tableRead p i = .error .lutIndex) ∧
    (0 ≤ i → i ≤ 255 → tableRead p i = .ok (p.sineTable.entries.getD i.toNat 0))) ∧
  (∀ x : Int, ∃ v, sinCore params x = .ok v) ∧
  ∃ (p : Config.Params) (x : Int), sinCore p x = .error .lutIndex

/-- Rule R151: SinCore is its pseudocode on unbounded integers; both indices lie in the table, no step wraps or
saturates, and the value is at most 3·ONE/2 in magnitude. -/
def Obligations.SinCoreInterpolatesWithoutSaturating : Prop :=
  ∀ x : Int, sinCore params x = .ok (sinSpec x).2.2 ∧
    0 ≤ (sinSpec x).1 ∧ (sinSpec x).1 ≤ 255 ∧ 0 ≤ (sinSpec x).2.1 ∧ (sinSpec x).2.1 ≤ 255 ∧
    2 * |(sinSpec x).2.2| ≤ 3 * 4294967296

/-- Rule R152: SIN takes every 64-bit angle, its result is SinCore's, and it is periodic in raw units. -/
def Obligations.SinTakesEveryAngle : Prop :=
  ∀ (a b : Word) (s : State), s.fault = 0x00#8 →
    decode ⟨0x00000021#32, a, b⟩ = .ok (.sin a.toInt) ∧
    ∃ r : Word, exec (.sin a.toInt) s = .next { s with result := r, status := 0x00#8 } ∧
      sinCore params a.toInt = .ok r.toInt ∧
      exec (.sin (a.toInt + 26986075409)) s = exec (.sin a.toInt) s

/-- The exact angles of rule R152's and R153's corner cases (a sanity statement). -/
def Obligations.QuadrantAnglesAreExact : Prop :=
  sinCore params 0 = .ok 0 ∧ sinCore params 6746518852 = .ok 4294967296 ∧ sinCore params 13493037704 = .ok 0 ∧
    sinCore params 20239556556 = .ok (-4294967296) ∧ sinCore params 26986075409 = .ok 0 ∧
    sinCore params (-6746518852) = .ok (-4294967296) ∧
    sinCore params (cosAngle params 0) = .ok 4294967296 ∧ sinCore params (cosAngle params 6746518852) = .ok 0 ∧
    sinCore params (cosAngle params 13493037704) = .ok (-4294967296) ∧
    sinCore params (cosAngle params 26986075409) = .ok 4294967296

/-- Rule R153: COS takes every 64-bit angle; its result is SinCore's of the shifted angle, which stays a 64-bit value. -/
def Obligations.CosShiftsThePhase : Prop :=
  ∀ (a b : Word) (s : State), s.fault = 0x00#8 →
    decode ⟨0x00000022#32, a, b⟩ = .ok (.cos a.toInt) ∧
    ∃ (r : Word) (x : Int), x = (if 0 < a.toInt then a.toInt - 20239556556 else a.toInt + 6746518852) ∧
      -9223372036854775808 ≤ x ∧ x ≤ 9223372036854775807 ∧
      exec (.cos a.toInt) s = .next { s with result := r, status := 0x00#8 } ∧ sinCore params x = .ok r.toInt

/-! ## Root, logarithms, exponential -/

/-- Rule R160: SQRT's result is the integer nearest the root of `x·2^32`; a negative operand faults. -/
def Obligations.SqrtIsCorrectlyRounded : Prop :=
  ∀ (a b : Word) (s : State), s.fault = 0x00#8 →
    decode ⟨0x00000023#32, a, b⟩ = .ok (.sqrt a.toInt) ∧
    (a.toInt < 0 → exec (.sqrt a.toInt) s = .next { s with status := 0x03#8, fault := 0x03#8 }) ∧
    (0 ≤ a.toInt → ∃ r : Word, exec (.sqrt a.toInt) s = .next { s with result := r, status := 0x00#8 } ∧
      0 ≤ r.toInt ∧ r.toInt ≤ 0xB504F333F9DE ∧
      (r.toInt = 0 ∨ (2 * r.toInt - 1) * (2 * r.toInt - 1) < 4 * (a.toInt * 4294967296)) ∧
      4 * (a.toInt * 4294967296) < (2 * r.toInt + 1) * (2 * r.toInt + 1))

/-- Rule R170: LOG2 normalises x into [ONE, 2·ONE), which gives the integer part, and extracts 32 fractional bits by
squaring; the result lies in [−32q, 31q). -/
def Obligations.Log2ExtractsBitsBySquaring : Prop :=
  ∀ (a b : Word) (s : State), s.fault = 0x00#8 →
    decode ⟨0x00000024#32, a, b⟩ = .ok (.log2 a.toInt) ∧
    (a.toInt ≤ 0 → exec (.log2 a.toInt) s = .next { s with status := 0x04#8, fault := 0x04#8 }) ∧
    (0 < a.toInt → ∃ (r : Word) (z n : Int),
      exec (.log2 a.toInt) s = .next { s with result := r, status := 0x00#8 } ∧
      4294967296 ≤ z ∧ z < 8589934592 ∧
      (n < 0 → a.toInt < 4294967296 ∧ z = a.toInt * 2 ^ (-n).toNat) ∧
      (0 ≤ n → 4294967296 ≤ a.toInt ∧ z = a.toInt / 2 ^ n.toNat) ∧
      -32 ≤ n ∧ n ≤ 30 ∧
      r.toInt = n * 4294967296 + log2Fraction 32 z ∧
      0 ≤ log2Fraction 32 z ∧ log2Fraction 32 z < 4294967296)

/-- Rule R171: LN is LOG2's result times LN2, rounded toward minus infinity, with LOG2's fault. -/
def Obligations.LnScalesLog2 : Prop :=
  ∀ (a b : Word) (s : State), s.fault = 0x00#8 →
    decode ⟨0x00000025#32, a, b⟩ = .ok (.ln a.toInt) ∧
    (a.toInt ≤ 0 → exec (.ln a.toInt) s = .next { s with status := 0x04#8, fault := 0x04#8 }) ∧
    (0 < a.toInt → ∃ y r : Word,
      exec (.log2 a.toInt) s = .next { s with result := y, status := 0x00#8 } ∧
      exec (.ln a.toInt) s = .next { s with result := r, status := 0x00#8 } ∧
      r.toInt = y.toInt * 2977044471 / 4294967296)

/-- Rule R180: EXP never faults; its special cases in their order; otherwise the series of at most 40 terms, stopped
before a zero term, and the reciprocal of the series of |x| for a negative x. -/
def Obligations.ExpSumsItsSeries : Prop :=
  ∀ (a b : Word) (s : State), s.fault = 0x00#8 →
    decode ⟨0x00000026#32, a, b⟩ = .ok (.exp a.toInt) ∧
    ∃ r : Word, exec (.exp a.toInt) s = .next { s with result := r, status := 0x00#8 } ∧
      (a.toInt = 0 → r.toInt = 4294967296) ∧
      (a.toInt = 4294967296 → r.toInt = 11674931554) ∧
      (92288378626 ≤ a.toInt → r.toInt = 9223372036854775807) ∧
      (a.toInt ≤ -95265423098 → r.toInt = 0) ∧
      (a.toInt ≠ 0 → a.toInt ≠ 4294967296 → -95265423098 < a.toInt → a.toInt < 92288378626 →
        ∃ n : Nat, n ≤ 40 ∧ (∀ k, 1 ≤ k → k ≤ n → expTerm |a.toInt| k ≠ 0) ∧
          (n = 40 ∨ expTerm |a.toInt| (n + 1) = 0) ∧ 4294967296 ≤ expSum |a.toInt| n ∧
          r.toInt = if a.toInt < 0
            then (2 * 18446744073709551616 + expSum |a.toInt| n) / (2 * expSum |a.toInt| n)
            else expSum |a.toInt| n)

/-! ## Random -/

/-- Rule R201: SEED builds the seed table of its recurrence, on every seed and in either phase. -/
def Obligations.SeedBuildsTheSeedTable : Prop :=
  ∀ (a b : Word) (s : State), s.fault = 0x00#8 →
    decode ⟨0x00000030#32, a, b⟩ = .ok (.seed (low32 a)) ∧
    ∃ g : Prng, exec (.seed (low32 a)) s =
        .next { s with prng := g, seeded := true, result := 0#64, status := 0x00#8 } ∧
      (∀ k : Fin 56, (g.seedArray[k]).toInt = (seedTable (low32 a)).getD k.val 0) ∧ g.inext = 0 ∧ g.inextp = 21

/-- Rule R201's corner cases: a seed and its negation build the same state, and so do I32MIN and I32MAX. -/
def Obligations.SeedIgnoresTheSign : Prop :=
  ∀ (n : Int) (s : State), -2147483648 < n → n ≤ 2147483647 →
    exec (.seed (-n)) s = exec (.seed n) s ∧ exec (.seed (-2147483648)) s = exec (.seed 2147483647) s

/-- Rule R201's example, and the first draw of rule R212's (a sanity statement). -/
def Obligations.SeedZeroGoldenWords : Prop :=
  (seedContext 0).read 1 = 1440537475 ∧ (seedContext 0).read 2 = 765327687 ∧ (seedContext 0).read 3 = 2146736586 ∧
    (seedContext 0).read 21 = 2093921742 ∧ (seedContext 0).read 22 = 2028425576 ∧
    (seedContext 0).read 54 = 1723484144 ∧ (seedContext 0).read 55 = 25386146 ∧
    (rawDraw (seedContext 0)).1 = 1559595546

/-- Rule R211: the raw draw: its value and bounds, the one word it replaces, and the cursors. -/
def Obligations.RawDrawIsTheSubtractiveStep : Prop :=
  ∀ g : Prng, ∃ (i j : Fin 56) (v : Int),
    i.val = cursorAfter g.inext.val ∧ j.val = cursorAfter g.inextp.val ∧
    v = drawnValue (g.seedArray[i]).toInt (g.seedArray[j]).toInt ∧
    rawDraw g = (v, { seedArray := g.seedArray.set i.val (BitVec.ofInt 32 v) i.isLt, inext := i, inextp := j }) ∧
    -1 ≤ v ∧ v ≤ 2147483646 ∧
    (v = -1 → Int.bmod ((g.seedArray[i]).toInt - (g.seedArray[j]).toInt) 4294967296 = -2147483648) ∧
    (SeedArrayInRange g → 0 ≤ v) ∧
    CursorsDrawn (rawDraw g).2 ∧
    ((i.val : Int) - j.val) % 55 = ((g.inext.val : Int) - g.inextp.val) % 55

/-- Rule R28: no command but SEED and WRPRNG breaks the §3 invariant, and a draw that ends OK leaves both cursors in
[1, 55]. -/
def Obligations.DrawsKeepTheSeedArrayInRange : Prop :=
  ∀ (i : Instr) (s t : State), exec i s = .next t → (∀ v, i ≠ .seed v) → (∀ k v, i ≠ .wrprng k v) →
    SeedArrayInRange s.prng →
      SeedArrayInRange t.prng ∧ (isDraw i = true → t.status = 0x00#8 → CursorsDrawn t.prng)

/-- Rule R29: S[0] is read by no draw, SEED replaces it by 0 and does not read it. -/
def Obligations.WordZeroIsNeverRead : Prop :=
  (∀ (i : Instr) (s t : State) (v : Int), isDraw i = true → exec i s = .next t →
    exec i { s with prng := s.prng.write 0 v } = .next { t with prng := t.prng.write 0 v }) ∧
  ∀ (n v : Int) (s : State), s.fault = 0x00#8 → ∃ t,
    exec (.seed n) { s with prng := s.prng.write 0 v } = .next t ∧ exec (.seed n) s = .next t ∧ t.prng.read 0 = 0

/-- Rule R212: NEXT. -/
def Obligations.NextReturnsTheRawDraw : Prop :=
  ∀ (a b : Word) (s : State), s.fault = 0x00#8 →
    decode ⟨0x00000031#32, a, b⟩ = .ok .next ∧
    (s.seeded = false → exec .next s = .next { s with status := 0x07#8, fault := 0x07#8 }) ∧
    (s.seeded = true → ∃ r : Word,
      exec .next s = .next { s with prng := (rawDraw s.prng).2, result := r, status := 0x00#8 } ∧
      r.toInt = (rawDraw s.prng).1 ∧ (SeedArrayInRange s.prng → 0 ≤ r.toInt ∧ r.toInt ≤ 2147483646))

/-- Rule R213: Sample is the nearest Q31.32 fraction of MBIG, below ONE for every raw draw. -/
def Obligations.SampleIsTheNearestFraction : Prop :=
  ∀ r : Int, -1 ≤ r → r ≤ 2147483646 → ∃ f, sampleQ params r = .ok f ∧ IsFraction r f ∧
    (0 ≤ r → 0 ≤ f ∧ f ≤ 0xFFFFFFFE) ∧ (r = 2147483646 → f = 0xFFFFFFFE) ∧ (r = 1 → f = 2) ∧ (r = -1 → f = -2)

/-- Rule R214: NEXTMAX: the checks in their order, the value, its range under the §3 invariant, and that maxValue = 0
still draws. -/
def Obligations.NextmaxDrawsBelowItsBound : Prop :=
  ∀ (a b : Word) (s : State), s.fault = 0x00#8 →
    decode ⟨0x00000032#32, a, b⟩ = .ok (.nextmax (low32 a)) ∧
    (low32 a < 0 → exec (.nextmax (low32 a)) s = .next { s with status := 0x05#8, fault := 0x05#8 }) ∧
    (0 ≤ low32 a → s.seeded = false →
      exec (.nextmax (low32 a)) s = .next { s with status := 0x07#8, fault := 0x07#8 }) ∧
    (0 ≤ low32 a → s.seeded = true → ∃ (r : Word) (f : Int), IsFraction (rawDraw s.prng).1 f ∧
      exec (.nextmax (low32 a)) s =
        .next { s with prng := (rawDraw s.prng).2, result := r, status := 0x00#8 } ∧
      r.toInt = f * low32 a / 4294967296 ∧
      (low32 a = 0 → r.toInt = 0) ∧
      (SeedArrayInRange s.prng → 1 ≤ low32 a → 0 ≤ r.toInt ∧ r.toInt ≤ low32 a - 1))

/-- Rule R215: LargeSample's fraction is the exact rational rounded to nearest, in [0, ONE − 1] for all raw draws. -/
def Obligations.LargeFractionIsBelowOne : Prop :=
  ∀ r1 r2 : Int, -1 ≤ r1 → r1 ≤ 2147483646 → -1 ≤ r2 → r2 ≤ 2147483646 →
    IsLargeFraction r1 r2 (largeFraction r1 r2) ∧ 0 ≤ largeFraction r1 r2 ∧ largeFraction r1 r2 ≤ 4294967295

/-- Rule R216: NEXTRANGE: the checks in their order, both paths, and the range under the §3 invariant. That the one-draw
path's minValue − 1 is not wrapped to 32 bits at minValue = I32MIN is DEDUCED (log entry 7). -/
def Obligations.NextrangeDrawsWithinItsBounds : Prop :=
  ∀ (a b : Word) (s : State), s.fault = 0x00#8 →
    decode ⟨0x00000033#32, a, b⟩ = .ok (.nextrange (low32 a) (low32 b)) ∧
    (low32 b ≤ low32 a →
      exec (.nextrange (low32 a) (low32 b)) s = .next { s with status := 0x05#8, fault := 0x05#8 }) ∧
    (low32 a < low32 b → s.seeded = false →
      exec (.nextrange (low32 a) (low32 b)) s = .next { s with status := 0x07#8, fault := 0x07#8 }) ∧
    (low32 a < low32 b → s.seeded = true → low32 b - low32 a ≤ 2147483647 → ∃ (r : Word) (f : Int),
      IsFraction (rawDraw s.prng).1 f ∧
      exec (.nextrange (low32 a) (low32 b)) s =
        .next { s with prng := (rawDraw s.prng).2, result := r, status := 0x00#8 } ∧
      r.toInt = low32 a + f * (low32 b - low32 a) / 4294967296 ∧
      (SeedArrayInRange s.prng → low32 a ≤ r.toInt ∧ r.toInt ≤ low32 b - 1)) ∧
    (low32 a < low32 b → s.seeded = true → 2147483647 < low32 b - low32 a → ∃ (r : Word) (d : Int),
      IsLargeFraction (rawDraw s.prng).1 (rawDraw (rawDraw s.prng).2).1 d ∧
      exec (.nextrange (low32 a) (low32 b)) s =
        .next { s with prng := (rawDraw (rawDraw s.prng).2).2, result := r, status := 0x00#8 } ∧
      r.toInt = low32 a + d * (low32 b - low32 a) / 4294967296 ∧
      low32 a ≤ r.toInt ∧ r.toInt ≤ low32 b - 1)

/-- Rule R221: Uniform lies in (0, 1] for every raw draw of a legal context. -/
def Obligations.UniformLiesInTheHalfOpenUnit : Prop :=
  ∀ r : Int, -1 ≤ r → r ≤ 2147483646 → ∃ f, IsFraction r f ∧ uniformQ params r = .ok (4294967296 - f) ∧
    (0 ≤ r → 2 ≤ 4294967296 - f ∧ 4294967296 - f ≤ 4294967296) ∧ (r = 0 → f = 0) ∧
    (r = 2147483646 → 4294967296 - f = 2) ∧ (r = -1 → 4294967296 - f = 4294967298)

/-- Rule R220: GAUSS: the checks, the value of its two draws, its bound, and SQRT_NEGATIVE exactly for a first draw of
−1, in which case neither draw takes effect. -/
def Obligations.GaussCombinesTwoDraws : Prop :=
  ∀ (a b : Word) (s : State), s.fault = 0x00#8 →
    decode ⟨0x00000034#32, a, b⟩ = .ok .gauss ∧
    (s.seeded = false → exec .gauss s = .next { s with status := 0x07#8, fault := 0x07#8 }) ∧
    (s.seeded = true → (rawDraw s.prng).1 = -1 →
      exec .gauss s = .next { s with status := 0x03#8, fault := 0x03#8 }) ∧
    (s.seeded = true → (rawDraw s.prng).1 ≠ -1 → ∃ (r : Word) (f1 f2 l rad sine : Int),
      IsFraction (rawDraw s.prng).1 f1 ∧ IsFraction (rawDraw (rawDraw s.prng).2).1 f2 ∧
      lnQ params (4294967296 - f1) = .ok l ∧ sqrtQ (clamp64 (-2 * l)) = .ok rad ∧
      sinCore params (clamp64 (26986075409 * (4294967296 - f2) / 4294967296)) = .ok sine ∧
      exec .gauss s =
        .next { s with prng := (rawDraw (rawDraw s.prng).2).2, result := r, status := 0x00#8 } ∧
      r.toInt = clamp64 (rad * sine / 4294967296) ∧ |r.toInt| < 28174985462) ∧
    (SeedArrayInRange s.prng → (rawDraw s.prng).1 ≠ -1)

/-! ## The assembler -/

/-- Rule R88: a Q31.32 literal is the integer nearest its value times 2^32, ties to even; the assembler writes that integer
as the operand word of a Q operand where it lies in [MIN, MAX], and rejects the literal elsewhere. -/
def Obligations.FixedLiteralIsNearestTiesToEven : Prop :=
  ∀ (negative : Bool) (n k : Nat),
    ∃ (m : Nat) (v : Int), asmValue (.fixed negative n (10 ^ k)) = v ∧ v = (if negative then -(m : Int) else m) ∧
      2 * |(n : Int) * 4294967296 - m * 10 ^ k| ≤ 10 ^ k ∧
      (2 * |(n : Int) * 4294967296 - m * 10 ^ k| = 10 ^ k → m % 2 = 0) ∧
      (-9223372036854775808 ≤ v → v ≤ 9223372036854775807 →
        assembleWord .q (some (.fixed negative n (10 ^ k))) = some (BitVec.ofInt 64 v)) ∧
      (v < -9223372036854775808 ∨ 9223372036854775807 < v →
        assembleWord .q (some (.fixed negative n (10 ^ k))) = none)

/-- Rule R89: each pseudo-instruction is exactly one command, and what that command does: saturating negation, saturating
square, reading a cursor, and the return to the uninitialized phase. NEG and SQR are stated for every operand whose
value fits the operand word. -/
def Obligations.PseudoInstructionsExpand : Prop :=
  (∀ x : AsmOperand,
    expandPseudo "NEG".toList [x] = ("SUB".toList, [.integer 0, x]) ∧
    expandPseudo "SQR".toList [x] = ("MUL".toList, [x, x]) ∧
    (-9223372036854775808 ≤ asmValue x → asmValue x ≤ 9223372036854775807 →
      assembleCommand "SUB".toList [.integer 0, x] = some ⟨0x11#32, 0#64, BitVec.ofInt 64 (asmValue x)⟩ ∧
      assembleCommand "MUL".toList [x, x] =
        some ⟨0x12#32, BitVec.ofInt 64 (asmValue x), BitVec.ofInt 64 (asmValue x)⟩)) ∧
  assemble "RDINEXT".toList = some ⟨0x03#32, 56#64, 0#64⟩ ∧
  assemble "RDINEXTP".toList = some ⟨0x03#32, 57#64, 0#64⟩ ∧
  assemble "UNSEED".toList = some ⟨0x04#32, 58#64, 0#64⟩ ∧
  (∀ (w : Word) (s : State), s.fault = 0x00#8 →
    (∃ r : Word, runPorts { s with cmd := 0x11#32, a := 0#64, b := w } =
        .next { s with cmd := 0x11#32, a := 0#64, b := w, result := r, status := 0x00#8 } ∧
      r.toInt = clamp64 (-w.toInt) ∧ (w = 0x8000000000000000#64 → r = 0x7FFFFFFFFFFFFFFF#64)) ∧
    ∃ r : Word, runPorts { s with cmd := 0x12#32, a := w, b := w } =
        .next { s with cmd := 0x12#32, a := w, b := w, result := r, status := 0x00#8 } ∧
      r.toInt = clamp64 (w.toInt * w.toInt / 4294967296) ∧ 0 ≤ r.toInt) ∧
  ∀ s : State,
    runPorts { s with cmd := 0x03#32, a := 56#64, b := 0#64 } = .next { s with
      cmd := 0x03#32, a := 56#64, b := 0#64, result := BitVec.ofNat 64 s.prng.inext.val, status := 0x00#8 } ∧
    runPorts { s with cmd := 0x03#32, a := 57#64, b := 0#64 } = .next { s with
      cmd := 0x03#32, a := 57#64, b := 0#64, result := BitVec.ofNat 64 s.prng.inextp.val, status := 0x00#8 } ∧
    runPorts { s with cmd := 0x04#32, a := 58#64, b := 0#64 } = .next { s with
      cmd := 0x04#32, a := 58#64, b := 0#64, seeded := false, result := 0#64, status := 0x00#8 }

end
end

