-- ==== Sys2Proof/Laws/Arith.lean ====
section
/-! SUPPORT. The arithmetic primitives as plain integer facts: the clamp, the 32-bit wrap, the RESULT word of a value in
range, and the raw draw. -/

namespace Sys2Proof.Machine

theorem sat64_eq_clamp (v : Int) : sat64 v = max (-9223372036854775808) (min 9223372036854775807 v) := by
  simp only [sat64, qMax, qMin]
  split_ifs <;> omega

theorem sat64_range (v : Int) : -9223372036854775808 ≤ sat64 v ∧ sat64 v ≤ 9223372036854775807 := by
  simp only [sat64, qMax, qMin]
  split_ifs <;> omega

/-- The clamp leaves a value in range alone. -/
theorem sat64_of_fits {v : Int} (h : -9223372036854775808 ≤ v ∧ v ≤ 9223372036854775807) : sat64 v = v := by
  simp only [sat64, qMax, qMin]
  split_ifs <;> omega

/-- A 64-bit word written from a value in range reads back as that value. -/
theorem toInt_ofInt64 {v : Int} (h : -9223372036854775808 ≤ v ∧ v ≤ 9223372036854775807) :
    (BitVec.ofInt 64 v).toInt = v := by
  rw [BitVec.toInt_ofInt, Int.bmod_def]
  split_ifs <;> omega

theorem wrap32_range (v : Int) : -2147483648 ≤ wrap32 v ∧ wrap32 v ≤ 2147483647 := by
  simp only [wrap32]
  omega

theorem wrap32_of_fits {v : Int} (h : -2147483648 ≤ v ∧ v ≤ 2147483647) : wrap32 v = v := by
  simp only [wrap32]
  omega

/-- A 32-bit word reads back as its value wrapped to 32 bits. -/
theorem toInt_ofInt32 (v : Int) : (BitVec.ofInt 32 v).toInt = wrap32 v := by
  rw [BitVec.toInt_ofInt, Int.bmod_def]
  simp only [wrap32]
  split_ifs <;> omega

/-- The entries of the block's own sine ROM lie in [0, ONE] (rule R142). -/
theorem romEntry_range : ∀ i < 256, 0 ≤ romEntry params.sineTable i ∧ romEntry params.sineTable i ≤ qOne := by
  decide +kernel

/-- The block's own sine ROM is non-decreasing (rule R142). -/
theorem romEntry_mono :
    ∀ i < 255, romEntry params.sineTable i ≤ romEntry params.sineTable (i + 1) := by
  decide +kernel

/-- Inside the table, TableRead answers the entry. -/
theorem tableRead_ok (p : Config.Params) {i : Int} (h : 0 ≤ i ∧ i ≤ 255) :
    tableRead p i = .ok (romEntry p.sineTable i.toNat) := by
  have : ¬(i < 0 ∨ i > 255) := by omega
  simp [tableRead, this]

theorem tableRead_error (p : Config.Params) {i : Int} (h : i < 0 ∨ 255 < i) :
    tableRead p i = .error .lutIndex := by
  have : i < 0 ∨ i > 255 := by omega
  simp [tableRead, this]

theorem divQ_zero (mode : Config.DivRound) (a : Int) : divQ mode a 0 = .error .divByZero := by
  simp [divQ]

/-- A raw draw changes one word and both cursors (rule R211). -/
theorem rawDraw_snd (g : Prng) :
    (rawDraw g).2 = { seedArray := (g.write (advance g.inext) (rawDraw g).1).seedArray
                      inext := advance g.inext
                      inextp := advance g.inextp } := rfl

/-- An advanced cursor is never 0 (rule R211). -/
theorem advance_pos (i : Fin 56) : 1 ≤ (advance i).val := by
  revert i
  decide

end Sys2Proof.Machine
end

