-- ==== Sys2Proof/Laws/Assembler.lean ====
section
/-! SUPPORT. What the assembler's shared operation on operands can do, said once. -/

namespace Sys2Proof.Machine

@[simp] theorem assembleWord_omitted (k : OperandKind) : assembleWord k none = some noOperand := rfl

/-- An operand in its kind's range is written as the word of its value. -/
theorem assembleWord_of_fits {k : OperandKind} {o : AsmOperand} (h : operandFits k (asmValue o) = true) :
    assembleWord k (some o) = some (operandWord (asmValue o)) := by
  simp [assembleWord, h]

/-- An operand outside its kind's range is rejected. -/
theorem assembleWord_of_not_fits {k : OperandKind} {o : AsmOperand} (h : operandFits k (asmValue o) = false) :
    assembleWord k (some o) = none := by
  simp [assembleWord, h]

end Sys2Proof.Machine
end

