-- ==== Sys2Proof/Laws/State.lean ====
section
/-! SUPPORT. One lemma per field for each update of the state, so that no proof unfolds a record update. -/

namespace Sys2Proof.Machine

@[simp] theorem State.complete_cmd (s : State) (value : Word) : (s.complete value).cmd = s.cmd := rfl
@[simp] theorem State.complete_a (s : State) (value : Word) : (s.complete value).a = s.a := rfl
@[simp] theorem State.complete_b (s : State) (value : Word) : (s.complete value).b = s.b := rfl
@[simp] theorem State.complete_result (s : State) (value : Word) : (s.complete value).result = value := rfl
@[simp] theorem State.complete_status (s : State) (value : Word) : (s.complete value).status = codeOk := rfl
@[simp] theorem State.complete_fault (s : State) (value : Word) : (s.complete value).fault = s.fault := rfl
@[simp] theorem State.complete_seeded (s : State) (value : Word) : (s.complete value).seeded = s.seeded := rfl
@[simp] theorem State.complete_prng (s : State) (value : Word) : (s.complete value).prng = s.prng := rfl
@[simp] theorem State.complete_host (s : State) (value : Word) : (s.complete value).host = s.host := rfl

@[simp] theorem State.raise_cmd (s : State) (c : FaultCode) : (s.raise c).cmd = s.cmd := rfl
@[simp] theorem State.raise_a (s : State) (c : FaultCode) : (s.raise c).a = s.a := rfl
@[simp] theorem State.raise_b (s : State) (c : FaultCode) : (s.raise c).b = s.b := rfl
@[simp] theorem State.raise_result (s : State) (c : FaultCode) : (s.raise c).result = s.result := rfl
@[simp] theorem State.raise_status (s : State) (c : FaultCode) : (s.raise c).status = c.code := rfl
@[simp] theorem State.raise_fault (s : State) (c : FaultCode) : (s.raise c).fault = if s.fault = codeOk then c.code else s.fault := rfl
@[simp] theorem State.raise_seeded (s : State) (c : FaultCode) : (s.raise c).seeded = s.seeded := rfl
@[simp] theorem State.raise_prng (s : State) (c : FaultCode) : (s.raise c).prng = s.prng := rfl
@[simp] theorem State.raise_host (s : State) (c : FaultCode) : (s.raise c).host = s.host := rfl

@[simp] theorem State.block_cmd (s : State) : (s.block).cmd = s.cmd := rfl
@[simp] theorem State.block_a (s : State) : (s.block).a = s.a := rfl
@[simp] theorem State.block_b (s : State) : (s.block).b = s.b := rfl
@[simp] theorem State.block_result (s : State) : (s.block).result = s.result := rfl
@[simp] theorem State.block_status (s : State) : (s.block).status = codeBlocked := rfl
@[simp] theorem State.block_fault (s : State) : (s.block).fault = s.fault := rfl
@[simp] theorem State.block_seeded (s : State) : (s.block).seeded = s.seeded := rfl
@[simp] theorem State.block_prng (s : State) : (s.block).prng = s.prng := rfl
@[simp] theorem State.block_host (s : State) : (s.block).host = s.host := rfl

@[simp] theorem State.clearFault_cmd (s : State) : (s.clearFault).cmd = s.cmd := rfl
@[simp] theorem State.clearFault_a (s : State) : (s.clearFault).a = s.a := rfl
@[simp] theorem State.clearFault_b (s : State) : (s.clearFault).b = s.b := rfl
@[simp] theorem State.clearFault_result (s : State) : (s.clearFault).result = s.result := rfl
@[simp] theorem State.clearFault_status (s : State) : (s.clearFault).status = s.status := rfl
@[simp] theorem State.clearFault_fault (s : State) : (s.clearFault).fault = codeOk := rfl
@[simp] theorem State.clearFault_seeded (s : State) : (s.clearFault).seeded = s.seeded := rfl
@[simp] theorem State.clearFault_prng (s : State) : (s.clearFault).prng = s.prng := rfl
@[simp] theorem State.clearFault_host (s : State) : (s.clearFault).host = s.host := rfl

@[simp] theorem State.latch_cmd (s : State) (c : Command) (rest : List HostEvent) : (s.latch c rest).cmd = c.cmd := rfl
@[simp] theorem State.latch_a (s : State) (c : Command) (rest : List HostEvent) : (s.latch c rest).a = c.a := rfl
@[simp] theorem State.latch_b (s : State) (c : Command) (rest : List HostEvent) : (s.latch c rest).b = c.b := rfl
@[simp] theorem State.latch_result (s : State) (c : Command) (rest : List HostEvent) : (s.latch c rest).result = s.result := rfl
@[simp] theorem State.latch_status (s : State) (c : Command) (rest : List HostEvent) : (s.latch c rest).status = s.status := rfl
@[simp] theorem State.latch_fault (s : State) (c : Command) (rest : List HostEvent) : (s.latch c rest).fault = s.fault := rfl
@[simp] theorem State.latch_seeded (s : State) (c : Command) (rest : List HostEvent) : (s.latch c rest).seeded = s.seeded := rfl
@[simp] theorem State.latch_prng (s : State) (c : Command) (rest : List HostEvent) : (s.latch c rest).prng = s.prng := rfl
@[simp] theorem State.latch_host (s : State) (c : Command) (rest : List HostEvent) : (s.latch c rest).host = rest := rfl

@[simp] theorem State.withCommand_cmd (s : State) (c : Command) : (s.withCommand c).cmd = s.cmd := rfl
@[simp] theorem State.withCommand_a (s : State) (c : Command) : (s.withCommand c).a = s.a := rfl
@[simp] theorem State.withCommand_b (s : State) (c : Command) : (s.withCommand c).b = s.b := rfl
@[simp] theorem State.withCommand_result (s : State) (c : Command) : (s.withCommand c).result = s.result := rfl
@[simp] theorem State.withCommand_status (s : State) (c : Command) : (s.withCommand c).status = s.status := rfl
@[simp] theorem State.withCommand_fault (s : State) (c : Command) : (s.withCommand c).fault = s.fault := rfl
@[simp] theorem State.withCommand_seeded (s : State) (c : Command) : (s.withCommand c).seeded = s.seeded := rfl
@[simp] theorem State.withCommand_prng (s : State) (c : Command) : (s.withCommand c).prng = s.prng := rfl
@[simp] theorem State.withCommand_host (s : State) (c : Command) : (s.withCommand c).host = .command c :: s.host := rfl

@[simp] theorem State.resetKeeping_cmd (rest : List HostEvent) : (State.resetKeeping rest).cmd = State.reset.cmd := rfl
@[simp] theorem State.resetKeeping_a (rest : List HostEvent) : (State.resetKeeping rest).a = State.reset.a := rfl
@[simp] theorem State.resetKeeping_b (rest : List HostEvent) : (State.resetKeeping rest).b = State.reset.b := rfl
@[simp] theorem State.resetKeeping_result (rest : List HostEvent) : (State.resetKeeping rest).result = State.reset.result := rfl
@[simp] theorem State.resetKeeping_status (rest : List HostEvent) : (State.resetKeeping rest).status = State.reset.status := rfl
@[simp] theorem State.resetKeeping_fault (rest : List HostEvent) : (State.resetKeeping rest).fault = State.reset.fault := rfl
@[simp] theorem State.resetKeeping_seeded (rest : List HostEvent) : (State.resetKeeping rest).seeded = State.reset.seeded := rfl
@[simp] theorem State.resetKeeping_prng (rest : List HostEvent) : (State.resetKeeping rest).prng = State.reset.prng := rfl
@[simp] theorem State.resetKeeping_host (rest : List HostEvent) : (State.resetKeeping rest).host = rest := rfl

@[simp] theorem State.ports_cmd (s : State) : s.ports.cmd = s.cmd := rfl
@[simp] theorem State.ports_a (s : State) : s.ports.a = s.a := rfl
@[simp] theorem State.ports_b (s : State) : s.ports.b = s.b := rfl
@[simp] theorem State.ports_latch (s : State) (c : Command) (rest : List HostEvent) : (s.latch c rest).ports = c := rfl

@[simp] theorem Prng.write_inext (g : Prng) (i : Fin 56) (v : Int) : (g.write i v).inext = g.inext := rfl
@[simp] theorem Prng.write_inextp (g : Prng) (i : Fin 56) (v : Int) : (g.write i v).inextp = g.inextp := rfl

/-- Reading the word just written gives its value wrapped to 32 bits. -/
theorem Prng.read_write_same (g : Prng) (i : Fin 56) (v : Int) :
    (g.write i v).read i = (BitVec.ofInt 32 v).toInt := by
  simp [Prng.read, Prng.write]

/-- A write leaves every other word alone. -/
theorem Prng.read_write_other (g : Prng) (i j : Fin 56) (v : Int) (h : i ≠ j) :
    (g.write i v).read j = g.read j := by
  have hv : i.val ≠ j.val := fun e => h (Fin.ext e)
  simp [Prng.read, Prng.write, hv]

/-- A word of the seed array is a 32-bit signed integer. -/
theorem Prng.read_range (g : Prng) (i : Fin 56) : -2147483648 ≤ g.read i ∧ g.read i ≤ 2147483647 := by
  have h1 := BitVec.le_toInt (g.seedArray[i])
  have h2 := BitVec.toInt_lt (x := g.seedArray[i])
  simp only [Prng.read]
  omega

end Sys2Proof.Machine
end

