-- ==== Sys2Proof/Laws/Ops.lean ====
section
/-! SUPPORT. What each shared operation can do, said once: later proofs cite these lemmas instead of unfolding the
operation. -/

namespace Sys2Proof.Machine

theorem FaultCode.code_ne_ok (c : FaultCode) : c.code ≠ codeOk := by cases c <;> decide

theorem FaultCode.code_ne_blocked (c : FaultCode) : c.code ≠ codeBlocked := by cases c <;> decide

theorem FaultCode.code_le (c : FaultCode) : c.code.toNat ≤ 8 := by cases c <;> decide

/-- A command that ran ends with its result or with its fault. -/
theorem finish_cases (s : State) (r : Except FaultCode (State × Word)) :
    (∃ t value, r = .ok (t, value) ∧ s.finish r = t.complete value) ∨
      (∃ c, r = .error c ∧ s.finish r = s.raise c) := by
  cases r with
  | ok p => exact .inl ⟨p.1, p.2, rfl, rfl⟩
  | error c => exact .inr ⟨c, rfl, rfl⟩

/-- A command that is never BLOCKED always ends as `finish` says. -/
theorem control_next {s t : State} {r : Except FaultCode (State × Word)} (h : controlCommand s r = .next t) :
    t = s.finish r := by
  simpa [controlCommand] using h.symm

/-- A compute command is BLOCKED exactly while FAULT ≠ 0. -/
theorem compute_cases {s t : State} {r : Except FaultCode (State × Word)} (h : computeCommand s r = .next t) :
    (s.fault = codeOk ∧ t = s.finish r) ∨ (s.fault ≠ codeOk ∧ t = s.block) := by
  by_cases hf : s.fault = codeOk
  · exact .inl ⟨hf, by simpa [computeCommand, hf] using h.symm⟩
  · exact .inr ⟨hf, by simpa [computeCommand, hf] using h.symm⟩

theorem compute_of_clear {s : State} (r : Except FaultCode (State × Word)) (h : s.fault = codeOk) :
    computeCommand s r = .next (s.finish r) := by
  simp [computeCommand, h]

theorem compute_of_fault {s : State} (r : Except FaultCode (State × Word)) (h : s.fault ≠ codeOk) :
    computeCommand s r = .next s.block := by
  simp [computeCommand, h]

/-- A value command completes with its value. -/
theorem computeValue_ok {s : State} (value : Word) (h : s.fault = codeOk) :
    computeValue s (.ok value) = .next (s.complete value) :=
  compute_of_clear _ h

/-- A value command faults with its fault. -/
theorem computeValue_error {s : State} (c : FaultCode) (h : s.fault = codeOk) :
    computeValue s (.error c) = .next (s.raise c) :=
  compute_of_clear _ h

/-- What a value command can do. -/
theorem computeValue_cases {s t : State} {r : Except FaultCode Word} (h : computeValue s r = .next t) :
    (s.fault = codeOk ∧ ∃ value, r = .ok value ∧ t = s.complete value) ∨
      (s.fault = codeOk ∧ ∃ c, r = .error c ∧ t = s.raise c) ∨ (s.fault ≠ codeOk ∧ t = s.block) := by
  rcases compute_cases h with ⟨hf, rfl⟩ | ⟨hf, rfl⟩
  · cases r with
    | ok value => exact .inl ⟨hf, value, rfl, rfl⟩
    | error c => exact .inr (.inl ⟨hf, c, rfl, rfl⟩)
  · exact .inr (.inr ⟨hf, rfl⟩)

/-- A seeded draw command whose check passes and whose draw succeeds. -/
theorem computeDraw_ok {s : State} {draw : Prng → Except FaultCode (Word × Prng)} {value : Word} {g : Prng}
    (hf : s.fault = codeOk) (hs : s.seeded = true) (hd : draw s.prng = .ok (value, g)) :
    computeDraw s (.ok ()) draw = .next (({ s with prng := g } : State).complete value) := by
  simp [computeDraw, drawGuard, computeCommand, hf, hs, hd, bind, Except.bind, pure, Except.pure, State.finish]

/-- What a draw command can do. -/
theorem computeDraw_cases {s t : State} {check : Except FaultCode Unit}
    {draw : Prng → Except FaultCode (Word × Prng)} (h : computeDraw s check draw = .next t) :
    (s.fault ≠ codeOk ∧ t = s.block) ∨
      (s.fault = codeOk ∧ ∃ c, check = .error c ∧ t = s.raise c) ∨
      (s.fault = codeOk ∧ check = .ok () ∧ s.seeded = false ∧ t = s.raise .notSeeded) ∨
      (s.fault = codeOk ∧ check = .ok () ∧ s.seeded = true ∧ ∃ c, draw s.prng = .error c ∧ t = s.raise c) ∨
      (s.fault = codeOk ∧ check = .ok () ∧ s.seeded = true ∧
        ∃ value g, draw s.prng = .ok (value, g) ∧ t = ({ s with prng := g } : State).complete value) := by
  rcases compute_cases h with ⟨hf, rfl⟩ | ⟨hf, rfl⟩
  · right
    cases check with
    | error c => exact .inl ⟨hf, c, rfl, rfl⟩
    | ok u =>
      cases u
      cases hs : s.seeded with
      | false => exact .inr (.inl ⟨hf, rfl, rfl, by simp [bind, Except.bind, drawGuard, hs, State.finish]⟩)
      | true =>
        cases hd : draw s.prng with
        | error c =>
          exact .inr (.inr (.inl ⟨hf, rfl, rfl, c, rfl, by simp [bind, Except.bind, drawGuard, hs, State.finish]⟩))
        | ok p =>
          exact .inr (.inr (.inr ⟨hf, rfl, rfl, p.1, p.2, rfl,
            by simp [bind, Except.bind, drawGuard, hs, State.finish, pure, Except.pure]⟩))
  · exact .inl ⟨hf, rfl⟩

/-- Where RDPRNG's index lies, it reads an element; elsewhere it faults. -/
theorem readElement_cases (s : State) (idx : Int) :
    ((idx < 0 ∨ 58 < idx) ∧ readElement s idx = .error .badStateAccess) ∨
      ((0 ≤ idx ∧ idx ≤ 58) ∧ ∃ value, readElement s idx = .ok value) := by
  unfold readElement
  split
  · exact .inl ⟨by omega, rfl⟩
  · refine .inr ⟨by omega, ?_⟩
    split_ifs <;> exact ⟨_, rfl⟩

/-- WRPRNG writes no field but the PRNG context and SEEDED. -/
theorem writeElement_ok {s t : State} {idx value : Int} (h : writeElement s idx value = .ok t) :
    t = { s with prng := t.prng, seeded := t.seeded } := by
  unfold writeElement at h
  split_ifs at h <;> simp_all <;> subst h <;> rfl

/-- The step function, event by event. -/
theorem step_wait {s : State} (h : s.host = []) : step s = .next s := by
  simp [step, hostStep, h]

theorem step_command {s : State} {c : Command} {rest : List HostEvent} (h : s.host = .command c :: rest) :
    step s = runPorts (s.latch c rest) := by
  simp [step, hostStep, h]

theorem runPorts_ok {s : State} {i : Instr} (h : decode s.ports = .ok i) : runPorts s = exec i s := by
  simp [runPorts, h]

theorem runPorts_error {s : State} {e : IllegalWord} (h : decode s.ports = .error e) :
    runPorts s = .next (s.raise .illegalCommand) := by
  simp [runPorts, h]

end Sys2Proof.Machine
end

