-- ==== Sys2Proof/Laws/PerInstr.lean ====
section
/-! SUPPORT. Facts about every command as syntax, one lemma per constructor of `Instr`. -/

namespace Sys2Proof.Laws

/-- The command word of every command is its opcode with reserved bits zero, and the decoder reads a command of the same opcode from it
(`spec/30_encoding.md` rules R81, R84). -/
def CommandWord.Statement (i : Instr) : Prop :=
  rsvField (encode i).cmd = 0#24 ∧ opField (encode i).cmd = opcode i ∧
    ∀ a b : Word, ∃ j, decodeOp (opcode i) a b = .ok j ∧ opcode j = opcode i

theorem CommandWord.nop : CommandWord.Statement (.nop) :=
  ⟨by simp [rsvField, encode, opcode], by simp [opField, encode, opcode], fun _ _ => ⟨_, rfl, rfl⟩⟩
theorem CommandWord.rdstatus : CommandWord.Statement (.rdstatus) :=
  ⟨by simp [rsvField, encode, opcode], by simp [opField, encode, opcode], fun _ _ => ⟨_, rfl, rfl⟩⟩
theorem CommandWord.clrfault : CommandWord.Statement (.clrfault) :=
  ⟨by simp [rsvField, encode, opcode], by simp [opField, encode, opcode], fun _ _ => ⟨_, rfl, rfl⟩⟩
theorem CommandWord.rdprng (x : Int) : CommandWord.Statement (.rdprng x) :=
  ⟨by simp [rsvField, encode, opcode], by simp [opField, encode, opcode], fun _ _ => ⟨_, rfl, rfl⟩⟩
theorem CommandWord.wrprng (x y : Int) : CommandWord.Statement (.wrprng x y) :=
  ⟨by simp [rsvField, encode, opcode], by simp [opField, encode, opcode], fun _ _ => ⟨_, rfl, rfl⟩⟩
theorem CommandWord.add (x y : Int) : CommandWord.Statement (.add x y) :=
  ⟨by simp [rsvField, encode, opcode], by simp [opField, encode, opcode], fun _ _ => ⟨_, rfl, rfl⟩⟩
theorem CommandWord.sub (x y : Int) : CommandWord.Statement (.sub x y) :=
  ⟨by simp [rsvField, encode, opcode], by simp [opField, encode, opcode], fun _ _ => ⟨_, rfl, rfl⟩⟩
theorem CommandWord.mul (x y : Int) : CommandWord.Statement (.mul x y) :=
  ⟨by simp [rsvField, encode, opcode], by simp [opField, encode, opcode], fun _ _ => ⟨_, rfl, rfl⟩⟩
theorem CommandWord.div (x y : Int) : CommandWord.Statement (.div x y) :=
  ⟨by simp [rsvField, encode, opcode], by simp [opField, encode, opcode], fun _ _ => ⟨_, rfl, rfl⟩⟩
theorem CommandWord.floor (x : Int) : CommandWord.Statement (.floor x) :=
  ⟨by simp [rsvField, encode, opcode], by simp [opField, encode, opcode], fun _ _ => ⟨_, rfl, rfl⟩⟩
theorem CommandWord.round (x : Int) : CommandWord.Statement (.round x) :=
  ⟨by simp [rsvField, encode, opcode], by simp [opField, encode, opcode], fun _ _ => ⟨_, rfl, rfl⟩⟩
theorem CommandWord.sign (x : Int) : CommandWord.Statement (.sign x) :=
  ⟨by simp [rsvField, encode, opcode], by simp [opField, encode, opcode], fun _ _ => ⟨_, rfl, rfl⟩⟩
theorem CommandWord.abs (x : Int) : CommandWord.Statement (.abs x) :=
  ⟨by simp [rsvField, encode, opcode], by simp [opField, encode, opcode], fun _ _ => ⟨_, rfl, rfl⟩⟩
theorem CommandWord.lut (x : Int) : CommandWord.Statement (.lut x) :=
  ⟨by simp [rsvField, encode, opcode], by simp [opField, encode, opcode], fun _ _ => ⟨_, rfl, rfl⟩⟩
theorem CommandWord.sin (x : Int) : CommandWord.Statement (.sin x) :=
  ⟨by simp [rsvField, encode, opcode], by simp [opField, encode, opcode], fun _ _ => ⟨_, rfl, rfl⟩⟩
theorem CommandWord.cos (x : Int) : CommandWord.Statement (.cos x) :=
  ⟨by simp [rsvField, encode, opcode], by simp [opField, encode, opcode], fun _ _ => ⟨_, rfl, rfl⟩⟩
theorem CommandWord.sqrt (x : Int) : CommandWord.Statement (.sqrt x) :=
  ⟨by simp [rsvField, encode, opcode], by simp [opField, encode, opcode], fun _ _ => ⟨_, rfl, rfl⟩⟩
theorem CommandWord.log2 (x : Int) : CommandWord.Statement (.log2 x) :=
  ⟨by simp [rsvField, encode, opcode], by simp [opField, encode, opcode], fun _ _ => ⟨_, rfl, rfl⟩⟩
theorem CommandWord.ln (x : Int) : CommandWord.Statement (.ln x) :=
  ⟨by simp [rsvField, encode, opcode], by simp [opField, encode, opcode], fun _ _ => ⟨_, rfl, rfl⟩⟩
theorem CommandWord.exp (x : Int) : CommandWord.Statement (.exp x) :=
  ⟨by simp [rsvField, encode, opcode], by simp [opField, encode, opcode], fun _ _ => ⟨_, rfl, rfl⟩⟩
theorem CommandWord.seed (x : Int) : CommandWord.Statement (.seed x) :=
  ⟨by simp [rsvField, encode, opcode], by simp [opField, encode, opcode], fun _ _ => ⟨_, rfl, rfl⟩⟩
theorem CommandWord.next : CommandWord.Statement (.next) :=
  ⟨by simp [rsvField, encode, opcode], by simp [opField, encode, opcode], fun _ _ => ⟨_, rfl, rfl⟩⟩
theorem CommandWord.nextmax (x : Int) : CommandWord.Statement (.nextmax x) :=
  ⟨by simp [rsvField, encode, opcode], by simp [opField, encode, opcode], fun _ _ => ⟨_, rfl, rfl⟩⟩
theorem CommandWord.nextrange (x y : Int) : CommandWord.Statement (.nextrange x y) :=
  ⟨by simp [rsvField, encode, opcode], by simp [opField, encode, opcode], fun _ _ => ⟨_, rfl, rfl⟩⟩
theorem CommandWord.gauss : CommandWord.Statement (.gauss) :=
  ⟨by simp [rsvField, encode, opcode], by simp [opField, encode, opcode], fun _ _ => ⟨_, rfl, rfl⟩⟩

end Sys2Proof.Laws
end

