-- ==== Sys2Proof/Tests/Slice0.lean ====
section
/-! SUPPORT. The model's own tests: the checks of `WellFormed` on ill-formed commands, one written-out word for each
command of rule R84, small one-step tests with results from `spec/95_test_vectors.md` (the vector's id stands above each
one), and one witness for each obligation that has hypotheses. -/

namespace Sys2Proof.Tests

set_option Elab.async false

open Sys2Proof Sys2Proof.Machine Sys2Proof.Claims

/-! ## Helpers -/

/-- The block with one command left for the host to issue. -/
def pending (s : State) (cmd : CmdWord) (a b : Word) : State := { s with host := [.command ⟨cmd, a, b⟩] }

/-- STATUS and RESULT after one step with one command. -/
def out (s : State) (cmd : CmdWord) (a b : Word) : Code × Word :=
  match step (pending s cmd a b) with
  | .next t => (t.status, t.result)
  | _ => (0xFF#8, 0#64)

/-- A field of the state after one step with one command. -/
def field {α : Type} (f : State → α) (s : State) (cmd : CmdWord) (a b : Word) : α :=
  match step (pending s cmd a b) with
  | .next t => f t
  | _ => f s

/-- The reset state with a fault code in FAULT. -/
def faulted (c : Code) : State := { State.reset with fault := c }

/-- A seeded context in the phase SEED leaves (INEXT = 0, INEXTP = 21) with only the four words that two raw draws read. -/
def drawable (s1 s22 s2 s23 : SWord) : State :=
  { State.reset with
    seeded := true
    prng := {
      seedArray := (((Prng.reset.seedArray.set 1 s1).set 22 s22).set 2 s2).set 23 s23
      inext := 0
      inextp := 21 } }

/-- The words SEED 0 puts there (rule R201's example gives S[1], S[2] and S[22]; S[23] is the word that makes rule R212's
second draw 1755192844). -/
def seedZero : State := drawable 1440537475#32 2028425576#32 765327687#32 1157618490#32

/-- The context of vectors WR24 to WR28, in which the raw draw is −1. -/
def wrapping : State := drawable 0x80000000#32 0#32 0#32 0#32

/-- The context of vectors WR29 to WR33, in which the difference equals MBIG. -/
def atBound : State := drawable 0x7FFFFFFF#32 0#32 0#32 0#32

/-! ## Well-formedness: each check refuses an ill-formed command (rule R82) -/

theorem test_wf_add :
    Instr.wf (.add 9223372036854775808 0) = false ∧
    Instr.wf (.add 0 (-9223372036854775809)) = false := by decide

theorem test_wf_sub :
    Instr.wf (.sub 9223372036854775808 0) = false ∧
    Instr.wf (.sub 0 (-9223372036854775809)) = false := by decide

theorem test_wf_mul :
    Instr.wf (.mul 9223372036854775808 0) = false ∧
    Instr.wf (.mul 0 (-9223372036854775809)) = false := by decide

theorem test_wf_div :
    Instr.wf (.div 9223372036854775808 0) = false ∧
    Instr.wf (.div 0 (-9223372036854775809)) = false := by decide

theorem test_wf_wrprng :
    Instr.wf (.wrprng 9223372036854775808 0) = false ∧
    Instr.wf (.wrprng 0 (-9223372036854775809)) = false := by decide

theorem test_wf_one_operand :
    Instr.wf (.rdprng 9223372036854775808) = false ∧
    Instr.wf (.floor (-9223372036854775809)) = false ∧
    Instr.wf (.round 9223372036854775808) = false ∧
    Instr.wf (.sign (-9223372036854775809)) = false ∧
    Instr.wf (.abs 9223372036854775808) = false ∧
    Instr.wf (.lut (-9223372036854775809)) = false ∧
    Instr.wf (.sin 9223372036854775808) = false ∧
    Instr.wf (.cos (-9223372036854775809)) = false ∧
    Instr.wf (.sqrt 9223372036854775808) = false ∧
    Instr.wf (.log2 (-9223372036854775809)) = false ∧
    Instr.wf (.ln 9223372036854775808) = false ∧
    Instr.wf (.exp (-9223372036854775809)) = false := by decide

theorem test_wf_i32_operands :
    Instr.wf (.seed 2147483648) = false ∧
    Instr.wf (.seed (-2147483649)) = false ∧
    Instr.wf (.nextmax 2147483648) = false ∧
    Instr.wf (.nextmax (-2147483649)) = false ∧
    Instr.wf (.nextrange 2147483648 0) = false ∧
    Instr.wf (.nextrange 0 (-2147483649)) = false := by decide

theorem test_wf_accepts_the_bounds :
    Instr.wf (.add (-9223372036854775808) 9223372036854775807) = true ∧
    Instr.wf (.nextrange (-2147483648) 2147483647) = true := by decide

/-! ## Decoding: the words of rule R84, written out as its table gives them -/

theorem test_decode_nop : decode ⟨0x00000000#32, 0xFFFFFFFFFFFFFFFF#64, 0xFFFFFFFFFFFFFFFF#64⟩ = .ok (.nop) := by decide

theorem test_decode_rdstatus : decode ⟨0x00000001#32, 0#64, 0#64⟩ = .ok (.rdstatus) := by decide

theorem test_decode_clrfault : decode ⟨0x00000002#32, 0#64, 0#64⟩ = .ok (.clrfault) := by decide

theorem test_decode_rdprng : decode ⟨0x00000003#32, 0x000000000000003A#64, 0#64⟩ = .ok (.rdprng 58) := by decide

theorem test_decode_wrprng : decode ⟨0x00000004#32, 0x0000000000000039#64, 0xFFFFFFFFFFFFFFFF#64⟩ = .ok (.wrprng 57 (-1)) := by decide

theorem test_decode_add : decode ⟨0x00000010#32, 0x7FFFFFFFFFFFFFFF#64, 0x0000000000000001#64⟩ = .ok (.add 9223372036854775807 1) := by decide

theorem test_decode_sub : decode ⟨0x00000011#32, 0x0000000000000000#64, 0x8000000000000000#64⟩ = .ok (.sub 0 (-9223372036854775808)) := by decide

theorem test_decode_mul : decode ⟨0x00000012#32, 0x0000000180000000#64, 0x0000000200000000#64⟩ = .ok (.mul 6442450944 8589934592) := by decide

theorem test_decode_div : decode ⟨0x00000013#32, 0xFFFFFFFE00000000#64, 0x0000000300000000#64⟩ = .ok (.div (-8589934592) 12884901888) := by decide

theorem test_decode_floor : decode ⟨0x00000014#32, 0xFFFFFFFFFFFFFFFF#64, 0#64⟩ = .ok (.floor (-1)) := by decide

theorem test_decode_round : decode ⟨0x00000015#32, 0x0000000080000001#64, 0#64⟩ = .ok (.round 2147483649) := by decide

theorem test_decode_sign : decode ⟨0x00000016#32, 0xFFFFFFFD00000000#64, 0#64⟩ = .ok (.sign (-12884901888)) := by decide

theorem test_decode_abs : decode ⟨0x00000017#32, 0x8000000000000000#64, 0#64⟩ = .ok (.abs (-9223372036854775808)) := by decide

theorem test_decode_lut : decode ⟨0x00000020#32, 0x0000000100000000#64, 0#64⟩ = .ok (.lut 4294967296) := by decide

theorem test_decode_sin : decode ⟨0x00000021#32, 0xFFFFFFFF00000000#64, 0#64⟩ = .ok (.sin (-4294967296)) := by decide

theorem test_decode_cos : decode ⟨0x00000022#32, 0x0000000200000000#64, 0#64⟩ = .ok (.cos 8589934592) := by decide

theorem test_decode_sqrt : decode ⟨0x00000023#32, 0x0000000000000001#64, 0#64⟩ = .ok (.sqrt 1) := by decide

theorem test_decode_log2 : decode ⟨0x00000024#32, 0x0000000300000000#64, 0#64⟩ = .ok (.log2 12884901888) := by decide

theorem test_decode_ln : decode ⟨0x00000025#32, 0x0000000A00000000#64, 0#64⟩ = .ok (.ln 42949672960) := by decide

theorem test_decode_exp : decode ⟨0x00000026#32, 0xFFFFFFE9D1BD0106#64, 0#64⟩ = .ok (.exp (-95265423098)) := by decide

theorem test_decode_seed : decode ⟨0x00000030#32, 0x0000000180000000#64, 0#64⟩ = .ok (.seed (-2147483648)) := by decide

theorem test_decode_next : decode ⟨0x00000031#32, 0#64, 0#64⟩ = .ok (.next) := by decide

theorem test_decode_nextmax : decode ⟨0x00000032#32, 0xFFFFFFFF00000064#64, 0#64⟩ = .ok (.nextmax 100) := by decide

theorem test_decode_nextrange : decode ⟨0x00000033#32, 0xFFFFFFFFFFFFFFF6#64, 0x000000000000000A#64⟩ = .ok (.nextrange (-10) 10) := by decide

theorem test_decode_gauss : decode ⟨0x00000034#32, 0#64, 0#64⟩ = .ok (.gauss) := by decide

/-- Vectors of rule R85: the first and last word of each reserved run, and one reserved bit at each end of CMD[31:8]. -/
theorem test_decode_reserved :
    ([0x05, 0x0F, 0x18, 0x1F, 0x27, 0x2F, 0x35, 0xFF].all fun w =>
      decide (decode ⟨BitVec.ofNat 32 w, 0#64, 0#64⟩ = .error .reservedOpcode)) = true ∧
    ([0x110, 0x80000000].all fun w =>
      decide (decode ⟨BitVec.ofNat 32 w, 0#64, 0#64⟩ = .error .reservedBits)) = true := by decide

/-- Bits as `spec/opcode_table.json` numbers them: CMD in 31..0, A in 95..32, B in 159..96. -/
theorem test_table_word :
    decodeTableWord 160 0x0000000000000002000000000000000100000033 = some (.nextrange 1 2) ∧
    decodeTableWord 32 0x33 = some (.nextrange 0 0) ∧ decodeTableWord 32 0x35 = none := by decide

/-- `withFetchWord` puts the command where the very next step runs it: MUL 1.5q, 2q (FP9). -/
theorem test_fetch_word_runs :
    (match step (State.reset.withFetchWord 160 0x0000000200000000000000018000000000000012) with
      | .next t => (t.status, t.result)
      | _ => (0xFF#8, 0#64)) = (0x00#8, 0x300000000#64) := by decide +kernel

/-! ## One step: results from the vectors of `spec/95_test_vectors.md` -/

/-- FP1: ADD 0x7FFFFFFFFFFFFFFF, 1. -/
theorem test_add_saturates : out State.reset 0x10#32 0x7FFFFFFFFFFFFFFF#64 0x1#64 = (0x00#8, 0x7FFFFFFFFFFFFFFF#64) := by decide +kernel

/-- FP3: ADD 0x7FFFFFFFFFFFFFFF, -0x8000000000000000. -/
theorem test_add_mixed_signs : out State.reset 0x10#32 0x7FFFFFFFFFFFFFFF#64 0x8000000000000000#64 = (0x00#8, 0xFFFFFFFFFFFFFFFF#64) := by decide +kernel

/-- FP6: SUB 0, -0x8000000000000000. -/
theorem test_sub_negates_min : out State.reset 0x11#32 0x0#64 0x8000000000000000#64 = (0x00#8, 0x7FFFFFFFFFFFFFFF#64) := by decide +kernel

/-- FP7: SUB -1, 0x7FFFFFFFFFFFFFFF. -/
theorem test_sub_low : out State.reset 0x11#32 0xFFFFFFFFFFFFFFFF#64 0x7FFFFFFFFFFFFFFF#64 = (0x00#8, 0x8000000000000000#64) := by decide +kernel

/-- FP10: MUL -1, 1. -/
theorem test_mul_floors : out State.reset 0x12#32 0xFFFFFFFFFFFFFFFF#64 0x1#64 = (0x00#8, 0xFFFFFFFFFFFFFFFF#64) := by decide +kernel

/-- FP17: MUL 0x800000000000, -0x1000000000000. -/
theorem test_mul_saturates_low : out State.reset 0x12#32 0x800000000000#64 0xFFFF000000000000#64 = (0x00#8, 0x8000000000000000#64) := by decide +kernel

/-- FP25: DIV -1, 2q. -/
theorem test_div_ties_away : out State.reset 0x13#32 0xFFFFFFFFFFFFFFFF#64 0x200000000#64 = (0x00#8, 0xFFFFFFFFFFFFFFFF#64) := by decide +kernel

/-- FP27: DIV -0x8000000000000000, -1. -/
theorem test_div_saturates : out State.reset 0x13#32 0x8000000000000000#64 0xFFFFFFFFFFFFFFFF#64 = (0x00#8, 0x7FFFFFFFFFFFFFFF#64) := by decide +kernel

/-- FP38: FLOOR -1.5q. -/
theorem test_floor_negative : out State.reset 0x14#32 0xFFFFFFFE80000000#64 0x0#64 = (0x00#8, 0xFFFFFFFE00000000#64) := by decide +kernel

/-- FP37: FLOOR 0x7FFFFFFFFFFFFFFF. -/
theorem test_floor_max : out State.reset 0x14#32 0x7FFFFFFFFFFFFFFF#64 0x0#64 = (0x00#8, 0x7FFFFFFF00000000#64) := by decide +kernel

/-- FP49: ROUND -2.5q. -/
theorem test_round_tie_to_even : out State.reset 0x15#32 0xFFFFFFFD80000000#64 0x0#64 = (0x00#8, 0xFFFFFFFE00000000#64) := by decide +kernel

/-- FP46: ROUND 0x7FFFFFFFFFFFFFFF. -/
theorem test_round_saturates : out State.reset 0x15#32 0x7FFFFFFFFFFFFFFF#64 0x0#64 = (0x00#8, 0x7FFFFFFFFFFFFFFF#64) := by decide +kernel

/-- FP50: SIGN -0x8000000000000000. -/
theorem test_sign_min : out State.reset 0x16#32 0x8000000000000000#64 0x0#64 = (0x00#8, 0xFFFFFFFFFFFFFFFF#64) := by decide +kernel

/-- FP53: SIGN 5q. -/
theorem test_sign_positive : out State.reset 0x16#32 0x500000000#64 0x0#64 = (0x00#8, 0x1#64) := by decide +kernel

/-- FP54: ABS -0x8000000000000000. -/
theorem test_abs_min : out State.reset 0x17#32 0x8000000000000000#64 0x0#64 = (0x00#8, 0x7FFFFFFFFFFFFFFF#64) := by decide +kernel

/-- FP56: ABS -2.5q. -/
theorem test_abs_negative : out State.reset 0x17#32 0xFFFFFFFD80000000#64 0x0#64 = (0x00#8, 0x280000000#64) := by decide +kernel

/-- LT5: LUT 163. -/
theorem test_lut_reads : out State.reset 0x20#32 0xA3#64 0x0#64 = (0x00#8, 0xD7FA91F9#64) := by decide +kernel

/-- LT8: LUT 256. -/
theorem test_lut_past_end : out State.reset 0x20#32 0x100#64 0x0#64 = (0x06#8, 0x0#64) := by decide +kernel

/-- TR9: SIN 5q. -/
theorem test_sin_third_quadrant : out State.reset 0x21#32 0x500000000#64 0x0#64 = (0x00#8, 0xFFFFFFFF0A843198#64) := by decide +kernel

/-- TR20: SIN -0x8000000000000000. -/
theorem test_sin_min : out State.reset 0x21#32 0x8000000000000000#64 0x0#64 = (0x00#8, 0xF87079CF#64) := by decide +kernel

/-- TR23: COS -1q. -/
theorem test_cos_second_branch : out State.reset 0x22#32 0xFFFFFFFF00000000#64 0x0#64 = (0x00#8, 0x8A511A0B#64) := by decide +kernel

/-- TR29: COS 0x7FFFFFFFFFFFFFFF. -/
theorem test_cos_max : out State.reset 0x22#32 0x7FFFFFFFFFFFFFFF#64 0x0#64 = (0x00#8, 0x3DC06DC2#64) := by decide +kernel

/-- TR37: SQRT 3q. -/
theorem test_sqrt_rounds : out State.reset 0x23#32 0x300000000#64 0x0#64 = (0x00#8, 0x1BB67AE86#64) := by decide +kernel

/-- TR42: SQRT -1. -/
theorem test_sqrt_negative : out State.reset 0x23#32 0xFFFFFFFFFFFFFFFF#64 0x0#64 = (0x03#8, 0x0#64) := by decide +kernel

/-- TR47: LOG2 1. -/
theorem test_log2_smallest : out State.reset 0x24#32 0x1#64 0x0#64 = (0x00#8, 0xFFFFFFE000000000#64) := by decide +kernel

/-- TR53: LOG2 0xFFFFFFFF. -/
theorem test_log2_below_one : out State.reset 0x24#32 0xFFFFFFFF#64 0x0#64 = (0x00#8, 0xFFFFFFFFFFFFFFFE#64) := by decide +kernel

/-- TR61: LN 0.5q. -/
theorem test_ln_floors : out State.reset 0x25#32 0x80000000#64 0x0#64 = (0x00#8, 0xFFFFFFFF4E8DE809#64) := by decide +kernel

/-- TR63: LN 0. -/
theorem test_ln_zero : out State.reset 0x25#32 0x0#64 0x0#64 = (0x04#8, 0x0#64) := by decide +kernel

/-- TR74: EXP 20q. -/
theorem test_exp_forty_terms : out State.reset 0x26#32 0x1400000000#64 0x0#64 = (0x00#8, 0x1CEAD85B71F28CAB#64) := by decide +kernel

/-- TR82: EXP -95265423097. -/
theorem test_exp_reciprocal : out State.reset 0x26#32 0xFFFFFFE9D1BD0107#64 0x0#64 = (0x00#8, 0x3#64) := by decide +kernel

/-- SEED 0, then SD3, SD4, SD6 and SD8: `S[1]`, `S[2]`, `S[55]`, INEXTP. -/
theorem test_seed_zero :
    field (fun t => (t.prng.seedArray[1], t.prng.seedArray[2], t.prng.seedArray[55], t.prng.inextp.val)) State.reset
      0x30#32 0#64 0#64 = (0x55DCDB83#32, 0x2D9DF947#32, 0x1835CA2#32, 21) := by decide +kernel

/-- SD15 to SD17: SEED I32MIN, `S[1]` and `S[55]`. -/
theorem test_seed_min :
    field (fun t => (t.prng.seedArray[1], t.prng.seedArray[55], t.seeded)) State.reset 0x30#32 0x80000000#64 0#64 =
      (0x55DCDB83#32, 0x1835CA4#32, true) := by decide +kernel

/-- NX1: NEXT. -/
theorem test_next_after_seed_zero : out seedZero 0x31#32 0x0#64 0x0#64 = (0x00#8, 0x5CF58A1A#64) := by decide +kernel

/-- WR33: the difference equals MBIG. -/
theorem test_next_at_bound : out atBound 0x31#32 0#64 0#64 = (0x00#8, 0x7FFFFFFE#64) := by decide +kernel

/-- NM1: NEXTMAX 100. -/
theorem test_nextmax_scales : out seedZero 0x32#32 0x64#64 0x0#64 = (0x00#8, 0x48#64) := by decide +kernel

/-- WR23: the raw draw −1. -/
theorem test_nextmax_minus_one : out wrapping 0x32#32 0x64#64 0#64 = (0x00#8, 0xFFFFFFFFFFFFFFFF#64) := by decide +kernel

/-- NR1: NEXTRANGE -10, 10. -/
theorem test_nextrange_small : out seedZero 0x33#32 0xFFFFFFFFFFFFFFF6#64 0xA#64 = (0x00#8, 0x4#64) := by decide +kernel

/-- NL1: NEXTRANGE -2147483648, 2147483647. -/
theorem test_nextrange_large : out seedZero 0x33#32 0xFFFFFFFF80000000#64 0x7FFFFFFF#64 = (0x00#8, 0xFFFFFFFFA30A75E3#64) := by decide +kernel

/-- GS1: GAUSS. -/
theorem test_gauss_after_seed_zero : out seedZero 0x34#32 0x0#64 0x0#64 = (0x00#8, 0x177C0327D#64) := by decide +kernel

/-- WR16 and WR17: a first draw of −1 faults with SQRT_NEGATIVE, and neither draw takes effect. -/
theorem test_gauss_sqrt_negative :
    out wrapping 0x34#32 0#64 0#64 = (0x03#8, 0#64) ∧
    field (fun t => decide (t.prng = wrapping.prng)) wrapping 0x34#32 0#64 0#64 = true := by decide +kernel

/-- CT1. -/
theorem test_nop : out { State.reset with result := 5#64 } 0x00#32 9#64 9#64 = (0x00#8, 0#64) := by decide +kernel

/-- CT4: after DIV 1q, 0. -/
theorem test_rdstatus : out { faulted 0x02#8 with status := 0x02#8 } 0x01#32 0#64 0#64 = (0x00#8, 0x20002#64) := by
  decide +kernel

/-- CT12. -/
theorem test_clrfault : field State.fault (faulted 0x02#8) 0x02#32 0#64 0#64 = 0x00#8 := by decide +kernel

/-- RDPRNG sign-extends (rule R32): S[1] = −2147483648. -/
theorem test_rdprng_sign_extends : out wrapping 0x03#32 1#64 0#64 = (0x00#8, 0xFFFFFFFF80000000#64) := by decide +kernel

/-- RDPRNG 59 faults (rule R253). -/
theorem test_rdprng_past_end : out State.reset 0x03#32 59#64 0#64 = (0x08#8, 0#64) := by decide +kernel

/-- WR34 and WR35: only B[31:0] reaches S. -/
theorem test_wrprng_truncates : field (fun t => t.prng.seedArray[0]) State.reset 0x04#32 0#64 0x1234567890#64 =
    0x34567890#32 := by decide +kernel

/-- Rule R254: the last legal value of a cursor, and the first one above. -/
theorem test_wrprng_cursor : out State.reset 0x04#32 57#64 56#64 = (0x08#8, 0#64) ∧
    field (fun t => t.prng.inextp.val) State.reset 0x04#32 57#64 55#64 = 55 := by decide +kernel

/-- CT6: BLOCKED; the sticky fault stays the first one, also under a later ILLEGAL_COMMAND (rule R307). -/
theorem test_blocked : out (faulted 0x02#8) 0x10#32 1#64 1#64 = (0x09#8, 0#64) ∧
    field State.fault (faulted 0x02#8) 0x05#32 0#64 0#64 = 0x02#8 ∧
    out (faulted 0x02#8) 0x05#32 0#64 0#64 = (0x01#8, 0#64) := by decide +kernel

/-- Rule R302's example: NEXTMAX −1 on an unseeded block. -/
theorem test_range_before_seeded : out State.reset 0x32#32 0xFFFFFFFFFFFFFFFF#64 0#64 = (0x05#8, 0#64) := by decide +kernel

/-- Rule R103: DIV 1, 2q under TRUNC; rule R30: LUT_INTERVAL under either rounding. -/
theorem test_div_trunc :
    divQ .trunc 1 8589934592 = .ok 0 ∧ divQ .trunc (fromInt 255) 6746518852 = .ok 697236581114 ∧
    divQ .halfAway (fromInt 255) 6746518852 = .ok 697236581115 := by decide +kernel

/-- Rule R142: a table that decreases, one with 255 entries, one with an entry above ONE, and one that passes. -/
theorem test_sine_table_refused :
    Config.sineTableOk (1 :: List.replicate 255 0) = false ∧ Config.sineTableOk (List.replicate 255 0) = false ∧
    Config.sineTableOk (List.replicate 255 0 ++ [4294967297]) = false ∧
    Config.sineTableOk (List.replicate 256 7) = true := by decide +kernel

/-- Rules R88 and R89: the rules' own examples, a comment, and what the assembler rejects. -/
theorem test_assemble :
    assemble "ADD 1.5q, -1q ; sum".toList = some ⟨0x10#32, 0x180000000#64, 0xFFFFFFFF00000000#64⟩ ∧
    assemble "NEG 0x10".toList = some ⟨0x11#32, 0#64, 16#64⟩ ∧
    assemble "SEED 4294967296".toList = none ∧ assemble "FLOOR 2147483648q".toList = none ∧
    assemble "NEXTMAX -1".toList = some ⟨0x32#32, 0xFFFFFFFFFFFFFFFF#64, 0#64⟩ := by decide +kernel

/-! ## Witnesses: a concrete state and operands for the hypotheses of each obligation, at the bounds of each clause -/

theorem witness_DecodeOfEncode :
    Instr.wf (.wrprng 9223372036854775807 (-9223372036854775808)) = true ∧
    Instr.wf (.nextrange (-2147483648) 2147483647) = true := by decide +kernel

theorem witness_IllegalWordsFaultAndLegalWordsDecode :
    (0x34#32 : CmdWord) ∈ legalWords ∧ (0x35#32 : CmdWord) ∉ legalWords ∧ (0x80000000#32 : CmdWord) ∉ legalWords ∧
    (pending State.reset 0x35#32 0#64 0#64).host = .command ⟨0x35#32, 0#64, 0#64⟩ :: [] := by decide +kernel

theorem witness_DecodedOperandsAreInRange :
    decode ⟨0x33#32, 0x80000000#64, 0x7FFFFFFF#64⟩ = .ok (.nextrange (-2147483648) 2147483647) ∧
    decode ⟨0x10#32, 0x8000000000000000#64, 0x7FFFFFFFFFFFFFFF#64⟩ =
      .ok (.add (-9223372036854775808) 9223372036854775807) := by decide +kernel

theorem witness_StepRunsTheDecodedCommand :
    (pending State.reset 0x30#32 5#64 0#64).host = .command ⟨0x30#32, 5#64, 0#64⟩ :: [] ∧
    decode ⟨0x30#32, 5#64, 0#64⟩ = .ok (.seed 5) := by decide +kernel

theorem witness_StepWaitsForTheHostAndNeverStops :
    State.reset.host = [] := by decide +kernel

theorem witness_ResetPutsEveryElementInItsResetValue :
    ({ seedZero with host := [.reset] } : State).host = .reset :: [] ∧
    ({ seedZero with host := [.resetDuring ⟨0x31#32, 0#64, 0#64⟩] } : State).host =
      .resetDuring ⟨0x31#32, 0#64, 0#64⟩ :: [] := by decide +kernel

theorem witness_StepKeepsCodesLegal :
    CodesLegal (pending State.reset 0x13#32 1#64 0#64) ∧
    ∃ t, step (pending State.reset 0x13#32 1#64 0#64) = .next t ∧ t.fault = 0x02#8 := 
  ⟨by unfold CodesLegal; decide +kernel, _, rfl, by decide +kernel⟩

theorem witness_RunIsCompositionInIssueOrder :
    seedZero.host = [] := by decide +kernel

theorem witness_FailingCommandHasNoOtherEffect :
    (∃ t, runPorts { State.reset with cmd := 0x35#32 } = .next t ∧ t.status ≠ 0x00#8) ∧
    (∃ t, exec .gauss wrapping = .next t ∧ t.status ≠ 0x00#8) ∧
    ∃ t, exec (.div 1 0) (faulted 0x08#8) = .next t ∧ t.status = 0x09#8 := 
  ⟨⟨_, rfl, by decide +kernel⟩, ⟨_, rfl, by decide +kernel⟩, ⟨_, rfl, by decide +kernel⟩⟩

theorem witness_ComputeCommandsAreBlockedWhileFaultIsSet :
    (isCompute (.seed 0) = true ∧ (faulted 0x01#8).fault ≠ 0x00#8 ∧ (faulted 0x08#8).fault ≠ 0x00#8) ∧
    isCompute (.wrprng 0 0) = false ∧ ∃ t, exec (.wrprng 0 0) (faulted 0x08#8) = .next t ∧ t.status = 0x00#8 := 
  ⟨by decide, by decide, _, rfl, by decide +kernel⟩

theorem witness_FaultIsStickyUntilClrfault :
    (∃ t, exec (.rdprng 59) (faulted 0x02#8) = .next t ∧ t.status = 0x08#8 ∧ t.fault = 0x02#8) ∧
    (∃ t, exec (.sqrt (-1)) State.reset = .next t ∧ t.fault = 0x03#8) ∧
    ∃ t, exec .clrfault (faulted 0x02#8) = .next t ∧ t.fault = 0x00#8 := 
  ⟨⟨_, rfl, by decide +kernel⟩, ⟨_, rfl, by decide +kernel⟩, ⟨_, rfl, by decide +kernel⟩⟩

theorem witness_OnlyNamedCommandsWriteTheContext :
    (isDraw (.sin 0) = false ∧ ∃ t, exec (.sin 0) seedZero = .next t ∧ t.status = 0x00#8) ∧
    (isDraw .next = true ∧ ∃ t, exec .next seedZero = .next t ∧ t.status = 0x00#8) ∧
    ∃ t, exec (.wrprng 57 0) seedZero = .next t ∧ t.status = 0x00#8 := 
  ⟨⟨by decide, _, rfl, by decide +kernel⟩, ⟨by decide, _, rfl, by decide +kernel⟩, ⟨_, rfl, by decide +kernel⟩⟩

theorem witness_NoCommandReadsResult :
    ∃ t, exec .gauss seedZero = .next t ∧ t.status = 0x00#8 := ⟨_, rfl, by decide +kernel⟩

theorem witness_RdprngReadsEveryElement :
    (0x0#64).toInt = (0 : Fin 56).val ∧ (0x37#64).toInt = (55 : Fin 56).val ∧ (0x38#64).toInt = 56 ∧
    (0x39#64).toInt = 57 ∧ (0x3A#64).toInt = 58 ∧ (0xFFFFFFFFFFFFFFFF#64).toInt < 0 ∧ 58 < (0x3B#64).toInt := by decide +kernel

theorem witness_WrprngWritesEveryElement :
    ((0x0#64).toInt = (0 : Fin 56).val ∧ (0x37#64).toInt = (55 : Fin 56).val) ∧
    ((0x38#64).toInt = 56 ∧ (0x0#64).toInt = (0 : Fin 56).val ∧ (0x37#64).toInt = (55 : Fin 56).val) ∧ (0x39#64).toInt = 57 ∧
    ((0x3A#64).toInt = 58 ∧ (0x0#64).toInt = (if false then 1 else 0) ∧ (0x1#64).toInt = (if true then 1 else 0)) ∧
    (0xFFFFFFFFFFFFFFFF#64).toInt < 0 ∧ 58 < (0x3B#64).toInt ∧ 55 < (0x38#64).toInt ∧
    ((0x2#64).toInt ≠ 0 ∧ (0x2#64).toInt ≠ 1) := by decide +kernel

theorem witness_WritingBackInAnyOrderRestoresTheContext :
    (∀ k ∈ (List.range 59).reverse, k < 59) ∧ (∀ k < 59, k ∈ (List.range 59).reverse) ∧
    (∀ k ∈ List.range 59 ++ [3, 58], k < 59) ∧ ∀ k < 59, k ∈ List.range 59 ++ [3, 58] := by decide +kernel

theorem witness_AddSaturates :
    State.reset.fault = 0x00#8 := by decide +kernel

theorem witness_SubSaturates :
    State.reset.fault = 0x00#8 := by decide +kernel

theorem witness_MulIsTheClampedSumOfPartialProducts :
    State.reset.fault = 0x00#8 := by decide +kernel

theorem witness_DivRoundsHalfAwayAndFaultsOnZero :
    State.reset.fault = 0x00#8 ∧ (0x0#64).toInt = 0 ∧ (0xFFFFFFFFFFFFFFFF#64).toInt ≠ 0 ∧
    2 * |(0x1#64).toInt * 4294967296 - 1 * (0x200000000#64).toInt| = |(0x200000000#64).toInt| := by decide +kernel

theorem witness_FloorMasksTheFraction :
    State.reset.fault = 0x00#8 := by decide +kernel

theorem witness_RoundBreaksTiesToEven :
    State.reset.fault = 0x00#8 ∧ ((0x7FFFFFFF#64 : Word).extractLsb' 0 32).toNat < 0x80000000 ∧
    ((0x80000001#64 : Word).extractLsb' 0 32).toNat > 0x80000000 ∧
    (((0x80000000#64 : Word).extractLsb' 0 32).toNat = 0x80000000 ∧
      ((0x80000000#64 : Word) &&& 0xFFFFFFFF00000000#64).getLsbD 32 = false) ∧
    ((0x180000000#64 : Word) &&& 0xFFFFFFFF00000000#64).getLsbD 32 = true := by decide +kernel

theorem witness_SignIsAnInteger :
    State.reset.fault = 0x00#8 := by decide +kernel

theorem witness_AbsSaturatesAtMin :
    State.reset.fault = 0x00#8 ∧ (0x8000000000000001#64 : Word) ≠ 0x8000000000000000#64 := by decide +kernel

theorem witness_WideProductEqualsMulInRange :
    -9223372036854775808 ≤ (-9223372036854775808 : Int) * 4294967296 / 4294967296 ∧
    (9223372036854775807 : Int) * 4294967296 / 4294967296 ≤ 9223372036854775807 := by decide +kernel

theorem witness_LutReadsTheRom :
    State.reset.fault = 0x00#8 ∧ (0x0#64).toInt = (0 : Nat) ∧ (0xFF#64).toInt = (255 : Nat) ∧
    (0xFFFFFFFFFFFFFFFF#64).toInt < 0 ∧ 255 < (0x100#64).toInt := by decide +kernel

theorem witness_DefaultSineTableHasItsProperties :
    sineRom.getD 1 0 - sineRom.getD 0 0 = 26456769 ∧
    sineRom.getD 255 0 - sineRom.getD 254 0 = 81487 := by decide +kernel

theorem witness_TableReadFaultsOnlyOutsideTheTable :
    tableRead params (-1) = .error .lutIndex ∧ tableRead params 256 = .error .lutIndex ∧
    tableRead params 0 = .ok 0 ∧ tableRead params 255 = .ok 4294967296 := by decide +kernel

theorem witness_SinTakesEveryAngle :
    State.reset.fault = 0x00#8 := by decide +kernel

theorem witness_CosShiftsThePhase :
    State.reset.fault = 0x00#8 ∧ 0 < (0x1#64).toInt ∧ ¬ 0 < (0x0#64).toInt := by decide +kernel

theorem witness_SqrtIsCorrectlyRounded :
    State.reset.fault = 0x00#8 ∧ (0xFFFFFFFFFFFFFFFF#64).toInt < 0 ∧ 0 ≤ (0x0#64).toInt := by decide +kernel

theorem witness_Log2ExtractsBitsBySquaring :
    State.reset.fault = 0x00#8 ∧ (0x0#64).toInt ≤ 0 ∧ 0 < (0x1#64).toInt ∧
    log2Q 1 = .ok (-137438953472) ∧ 0 < (0x7FFFFFFFFFFFFFFF#64).toInt := by decide +kernel

theorem witness_LnScalesLog2 :
    State.reset.fault = 0x00#8 ∧ (0x0#64).toInt ≤ 0 ∧ 0 < (0x1#64).toInt := by decide +kernel

theorem witness_ExpSumsItsSeries :
    State.reset.fault = 0x00#8 ∧ (0x0#64).toInt = 0 ∧ (0x100000000#64).toInt = 4294967296 ∧
    92288378626 ≤ (0x157CD0E702#64).toInt ∧ (0xFFFFFFE9D1BD0106#64).toInt ≤ -95265423098 ∧
    (-95265423098 < (0xFFFFFFE9D1BD0107#64).toInt ∧ (0x157CD0E701#64).toInt < 92288378626) := by decide +kernel

theorem witness_SeedBuildsTheSeedTable :
    State.reset.fault = 0x00#8 ∧ low32 0x80000000#64 = -2147483648 ∧ low32 0xFFFFFFFF7FFFFFFF#64 = 2147483647 := by decide +kernel

theorem witness_SeedIgnoresTheSign :
    (-2147483648 : Int) < -2147483647 ∧ (2147483647 : Int) ≤ 2147483647 := by decide +kernel

theorem witness_RawDrawIsTheSubtractiveStep :
    SeedArrayInRange seedZero.prng ∧ (rawDraw wrapping.prng).1 = -1 ∧ (rawDraw atBound.prng).1 = 2147483646 := by
  unfold SeedArrayInRange; decide +kernel

theorem witness_DrawsKeepTheSeedArrayInRange :
    SeedArrayInRange seedZero.prng ∧ isDraw (.nextmax 0) = true ∧
    ∃ t, exec (.nextmax 0) seedZero = .next t ∧ t.status = 0x00#8 := 
  ⟨by unfold SeedArrayInRange; decide +kernel, by decide, _, rfl, by decide +kernel⟩

theorem witness_WordZeroIsNeverRead :
    isDraw (.nextrange 0 1) = true ∧
    ∃ t, exec (.nextrange 0 1) seedZero = .next t ∧ t.status = 0x00#8 := 
  ⟨by decide, _, rfl, by decide +kernel⟩

theorem witness_NextReturnsTheRawDraw :
    (State.reset.fault = 0x00#8 ∧ State.reset.seeded = false) ∧ seedZero.fault = 0x00#8 ∧ seedZero.seeded = true ∧
    SeedArrayInRange seedZero.prng := by
  unfold SeedArrayInRange; decide +kernel

theorem witness_SampleIsTheNearestFraction :
    (-1 : Int) ≤ -1 ∧ (2147483646 : Int) ≤ 2147483646 ∧ IsFraction (-1) (-2) ∧
    IsFraction 2147483646 0xFFFFFFFE := by
  unfold IsFraction; decide +kernel

theorem witness_NextmaxDrawsBelowItsBound :
    (low32 0xFFFFFFFF#64 < 0 ∧ 0 ≤ low32 0x0#64 ∧ 1 ≤ low32 0xFFFFFFFF00000001#64) ∧
    (State.reset.fault = 0x00#8 ∧ State.reset.seeded = false) ∧ seedZero.fault = 0x00#8 ∧ seedZero.seeded = true ∧
    SeedArrayInRange seedZero.prng := by
  unfold SeedArrayInRange; decide +kernel

theorem witness_LargeFractionIsBelowOne :
    (-1 : Int) ≤ 2147483646 ∧ IsLargeFraction 2147483646 2147483645 (largeFraction 2147483646 2147483645) ∧
    largeFraction 2147483646 2147483645 = 4294967295 ∧ largeFraction 2147483646 2147483646 = 0 := by
  unfold IsLargeFraction; decide +kernel

theorem witness_NextrangeDrawsWithinItsBounds :
    low32 0x5#64 ≤ low32 0x5#64 ∧
    (low32 0x5#64 < low32 0x6#64 ∧ State.reset.fault = 0x00#8 ∧ State.reset.seeded = false) ∧
    (seedZero.fault = 0x00#8 ∧ seedZero.seeded = true ∧ SeedArrayInRange seedZero.prng) ∧
    (low32 0x0#64 < low32 0x7FFFFFFF#64 ∧ low32 0x7FFFFFFF#64 - low32 0x0#64 ≤ 2147483647) ∧
    low32 0xFFFFFFFF#64 < low32 0x7FFFFFFF#64 ∧ 2147483647 < low32 0x7FFFFFFF#64 - low32 0xFFFFFFFF#64 := by
  unfold SeedArrayInRange; decide +kernel

theorem witness_UniformLiesInTheHalfOpenUnit :
    uniformQ params (-1) = .ok 4294967298 ∧ uniformQ params 0 = .ok 4294967296 ∧
    uniformQ params 2147483646 = .ok 2 := by decide +kernel

theorem witness_GaussCombinesTwoDraws :
    (State.reset.fault = 0x00#8 ∧ State.reset.seeded = false) ∧
    (wrapping.fault = 0x00#8 ∧ wrapping.seeded = true ∧ (rawDraw wrapping.prng).1 = -1) ∧
    (seedZero.fault = 0x00#8 ∧ seedZero.seeded = true ∧ (rawDraw seedZero.prng).1 = 1559595546) ∧
    (atBound.seeded = true ∧ (rawDraw atBound.prng).1 = 2147483646) ∧ SeedArrayInRange seedZero.prng := by
  unfold SeedArrayInRange; decide +kernel

theorem witness_FixedLiteralIsNearestTiesToEven :
    2 * |((116415321826934814453125 : Nat) : Int) * 4294967296 - ((0 : Nat) : Int) * 10 ^ 33| = 10 ^ 33 ∧
    asmValue (.fixed true 2147483648 (10 ^ 0)) = -9223372036854775808 ∧
    asmValue (.fixed false 21474836479999999998 (10 ^ 10)) = 9223372036854775807 ∧
    9223372036854775807 < asmValue (.fixed false 2147483648 (10 ^ 0)) ∧
    asmValue (.fixed true 21474836480000000002 (10 ^ 10)) < -9223372036854775808 := by decide +kernel

theorem witness_PseudoInstructionsExpand :
    State.reset.fault = 0x00#8 ∧ asmValue (.integer (-9223372036854775808)) = -9223372036854775808 ∧
    asmValue (.integer 9223372036854775807) = 9223372036854775807 := by decide +kernel

end Sys2Proof.Tests
end

section
/-! Proofs about the state of the block (`spec/10_state.md`). First layer: which commands share a meaning, and what a
command can do to the state; every statement of the family follows from that layer. -/

namespace Sys2Proof.Machine

/-! ## Draws as functions of raw draws -/

/-- A draw that computes its result from one raw draw (rules R212, R214 and the short range of R216). -/
def oneDraw (value : Int → Except FaultCode Word) (g : Prng) : Except FaultCode (Word × Prng) :=
  (value (rawDraw g).1).map fun w => (w, (rawDraw g).2)

/-- A draw that computes its result from two raw draws in a row (rules R215 and R220). -/
def twoDraws (value : Int → Int → Except FaultCode Word) (g : Prng) : Except FaultCode (Word × Prng) :=
  (value (rawDraw g).1 (rawDraw (rawDraw g).2).1).map fun w => (w, (rawDraw (rawDraw g).2).2)

/-- The two ways in which a draw command uses the generator. -/
inductive RawDraws : (Prng → Except FaultCode (Word × Prng)) → Prop
  | one (value : Int → Except FaultCode Word) : RawDraws (oneDraw value)
  | two (value : Int → Int → Except FaultCode Word) : RawDraws (twoDraws value)

theorem nextDraw_rawDraws : RawDraws nextDraw :=
  .one fun r => .ok (resultI32 r)

theorem nextMaxDraw_eq (p : Config.Params) (maxValue : Int) :
    nextMaxDraw p maxValue = oneDraw fun r => (scaledDraw p r maxValue).map resultI32 := by
  funext g
  simp only [nextMaxDraw, oneDraw]
  cases scaledDraw p (rawDraw g).1 maxValue <;> rfl

theorem nextRangeDraw_of_small (p : Config.Params) {lo hi : Int} (h : hi - lo ≤ i32Max) :
    nextRangeDraw p lo hi = oneDraw fun r => (scaledDraw p r (hi - lo)).map fun v => resultI32 (lo + v) := by
  funext g
  simp only [nextRangeDraw, oneDraw, if_pos h]
  cases scaledDraw p (rawDraw g).1 (hi - lo) <;> rfl

theorem nextRangeDraw_of_large (p : Config.Params) {lo hi : Int} (h : ¬ hi - lo ≤ i32Max) :
    nextRangeDraw p lo hi =
      twoDraws fun r1 r2 => .ok (resultI32 (lo + shr32 (largeFraction r1 r2 * (hi - lo)))) := by
  funext g
  simp only [nextRangeDraw, twoDraws, if_neg h, Except.map]

theorem nextRangeDraw_rawDraws (p : Config.Params) (lo hi : Int) : RawDraws (nextRangeDraw p lo hi) := by
  by_cases h : hi - lo ≤ i32Max
  · exact nextRangeDraw_of_small p h ▸ .one _
  · exact nextRangeDraw_of_large p h ▸ .two _

theorem gaussDraw_eq (p : Config.Params) :
    gaussDraw p = twoDraws fun r1 r2 => (gaussValue p r1 r2).map resultQ := by
  funext g
  simp only [gaussDraw, twoDraws]
  cases gaussValue p (rawDraw g).1 (rawDraw (rawDraw g).2).1 <;> rfl

/-! ## The commands by the meaning they share -/

/-- The commands sorted by what their meaning has in common: the reads among the control commands, CLRFAULT, WRPRNG, the
commands that compute a value from their operands alone, SEED, and the draws. -/
theorem exec_cases_by_meaning {motive : Instr → Prop}
    (read : ∀ i (value : State → Except FaultCode Word), isDraw i = false → i ≠ .clrfault →
      (∀ s r, value { s with result := r } = value s) →
      (∀ s, exec i s = controlCommand s ((value s).map fun w => (s, w))) → motive i)
    (clrfault : motive .clrfault)
    (wrprng : ∀ idx value, motive (.wrprng idx value))
    (value : ∀ i (r : Except FaultCode Word), isCompute i = true → isDraw i = false →
      (∀ s, exec i s = computeValue s r) → motive i)
    (seed : ∀ n, motive (.seed n))
    (draw : ∀ i check draw, isCompute i = true → isDraw i = true → RawDraws draw →
      (∀ s, exec i s = computeDraw s check draw) → motive i)
    (i : Instr) : motive i := by
  cases i with
  | nop => exact read _ (fun _ => .ok resultZero) rfl nofun (fun _ _ => rfl) fun _ => rfl
  | rdstatus =>
    exact read _ (fun s => .ok (statusWord s.fault s.seeded s.status)) rfl nofun (fun _ _ => rfl) fun _ => rfl
  | rdprng idx => exact read _ (readElement · idx) rfl nofun (fun _ _ => rfl) fun _ => rfl
  | clrfault => exact clrfault
  | wrprng idx v => exact wrprng idx v
  | add | sub | mul | div | floor | round | sign | abs | lut | sin | cos | sqrt | log2 | ln | exp =>
    exact value _ _ rfl rfl fun _ => rfl
  | seed n => exact seed n
  | next => exact draw _ _ _ rfl rfl nextDraw_rawDraws fun _ => rfl
  | nextmax hi => exact draw _ _ _ rfl rfl (nextMaxDraw_eq params hi ▸ .one _) fun _ => rfl
  | nextrange lo hi => exact draw _ _ _ rfl rfl (nextRangeDraw_rawDraws params lo hi) fun _ => rfl
  | gauss => exact draw _ _ _ rfl rfl (gaussDraw_eq params ▸ .two _) fun _ => rfl

/-! ## What a command that ends OK writes besides RESULT and STATUS -/

/-- `g'` is the context after one or more raw draws from `g`. -/
def DrawnFrom : Prng → Prng → Prop :=
  Relation.TransGen fun g g' => g' = (rawDraw g).2

theorem RawDraws.drawnFrom {draw : Prng → Except FaultCode (Word × Prng)} (hd : RawDraws draw) {g g' : Prng}
    {w : Word} (h : draw g = .ok (w, g')) : DrawnFrom g g' := by
  cases hd with
  | one value =>
    cases hv : value (rawDraw g).1 with
    | error c => simp [oneDraw, hv, Except.map] at h
    | ok w' =>
      obtain ⟨-, rfl⟩ : w' = w ∧ (rawDraw g).2 = g' := by simpa [oneDraw, hv, Except.map] using h
      exact .single rfl
  | two value =>
    cases hv : value (rawDraw g).1 (rawDraw (rawDraw g).2).1 with
    | error c => simp [twoDraws, hv, Except.map] at h
    | ok w' =>
      obtain ⟨-, rfl⟩ : w' = w ∧ (rawDraw (rawDraw g).2).2 = g' := by simpa [twoDraws, hv, Except.map] using h
      exact .tail (.single rfl) rfl

/-- The state a command that ends OK leaves, before RESULT and STATUS are written. -/
inductive Effect : Instr → State → State → Prop
  | nothing {i : Instr} {s : State} (hd : isDraw i = false) (hc : i ≠ .clrfault) : Effect i s s
  | clear {s : State} : Effect .clrfault s s.clearFault
  | write {idx value : Int} {s u : State} (h : writeElement s idx value = .ok u) : Effect (.wrprng idx value) s u
  | seed {n : Int} {s : State} : Effect (.seed n) s { s with prng := seedContext n, seeded := true }
  | draw {i : Instr} {s : State} {g : Prng} (hd : isDraw i = true) (hg : DrawnFrom s.prng g) :
      Effect i s { s with prng := g }

theorem ne_clrfault_of_isCompute {i : Instr} (h : isCompute i = true) : i ≠ .clrfault := by
  rintro rfl
  cases h

theorem ne_clrfault_of_isDraw {i : Instr} (h : isDraw i = true) : i ≠ .clrfault := by
  rintro rfl
  cases h

theorem codeBlocked_ne_ok : codeBlocked ≠ codeOk := by decide

/-- Everything a command can do: BLOCKED, a fault, or its effect and a result. -/
theorem exec_cases {i : Instr} {s t : State} (h : exec i s = .next t) :
    (isCompute i = true ∧ s.fault ≠ codeOk ∧ t = s.block) ∨
      (i ≠ .clrfault ∧ ∃ c, t = s.raise c) ∨
      ∃ u w, Effect i s u ∧ t = u.complete w := by
  cases i using exec_cases_by_meaning with
  | read i value hd hc _ he =>
    rw [he] at h
    obtain rfl := control_next h
    cases value s with
    | ok w => exact .inr (.inr ⟨s, w, .nothing hd hc, rfl⟩)
    | error c => exact .inr (.inl ⟨hc, c, rfl⟩)
  | clrfault => exact .inr (.inr ⟨_, _, .clear, control_next h⟩)
  | wrprng idx value =>
    obtain rfl := control_next h
    cases hw : writeElement s idx value with
    | ok u => exact .inr (.inr ⟨u, _, .write hw, rfl⟩)
    | error c => exact .inr (.inl ⟨nofun, c, rfl⟩)
  | value i r hi hd he =>
    have hc := ne_clrfault_of_isCompute hi
    rw [he] at h
    rcases computeValue_cases h with ⟨-, w, -, rfl⟩ | ⟨-, c, -, rfl⟩ | ⟨hf, rfl⟩
    · exact .inr (.inr ⟨s, w, .nothing hd hc, rfl⟩)
    · exact .inr (.inl ⟨hc, c, rfl⟩)
    · exact .inl ⟨hi, hf, rfl⟩
  | seed n =>
    rcases compute_cases h with ⟨-, rfl⟩ | ⟨hf, rfl⟩
    · exact .inr (.inr ⟨_, _, .seed, rfl⟩)
    · exact .inl ⟨rfl, hf, rfl⟩
  | draw i check draw hi hd hr he =>
    have hc := ne_clrfault_of_isCompute hi
    rw [he] at h
    rcases computeDraw_cases h with ⟨hf, rfl⟩ | ⟨-, c, -, rfl⟩ | ⟨-, -, -, rfl⟩ | ⟨-, -, -, c, -, rfl⟩ |
      ⟨-, -, -, w, g, hg, rfl⟩
    · exact .inl ⟨hi, hf, rfl⟩
    · exact .inr (.inl ⟨hc, c, rfl⟩)
    · exact .inr (.inl ⟨hc, _, rfl⟩)
    · exact .inr (.inl ⟨hc, c, rfl⟩)
    · exact .inr (.inr ⟨_, w, .draw hd (hr.drawnFrom hg), rfl⟩)

end Sys2Proof.Machine
end

section
/-! The generator's invariant under raw draws (`spec/10_state.md` rule R28, `spec/43_random.md` rule R211). -/

namespace Sys2Proof.Machine

theorem advance_ne_zero (i : Fin 56) : advance i ≠ 0 := by
  intro h
  have := advance_pos i
  simp [h] at this

/-- Two words in [0, MBIG) draw a value in [0, MBIG): their difference fits 32 bits and is not MBIG, and a negative one
gets MBIG added. -/
theorem drawValue_in_range {x y : Int} (hx : 0 ≤ x ∧ x < 2147483647) (hy : 0 ≤ y ∧ y < 2147483647) :
    0 ≤ drawValue x y ∧ drawValue x y < 2147483647 := by
  have hsub : wrap32 (x - y) = x - y := wrap32_of_fits (by omega)
  have hne : x - y ≠ 2147483647 := by omega
  simp only [drawValue, hsub, mBig, if_neg hne, addMBigIfNegative]
  split_ifs with hneg
  · rw [wrap32_of_fits (by omega)]
    omega
  · omega

theorem rawDraw_in_range {g : Prng} (h : SeedArrayInRange g) :
    0 ≤ (rawDraw g).1 ∧ (rawDraw g).1 < 2147483647 :=
  drawValue_in_range (h _ (advance_ne_zero _)) (h _ (advance_ne_zero _))

theorem rawDraw_keeps_inRange {g : Prng} (h : SeedArrayInRange g) : SeedArrayInRange (rawDraw g).2 := by
  intro i hi
  have hv := rawDraw_in_range h
  change 0 ≤ (g.write (advance g.inext) (rawDraw g).1).read i ∧
    (g.write (advance g.inext) (rawDraw g).1).read i < 2147483647
  by_cases hw : advance g.inext = i
  · subst hw
    rwa [Prng.read_write_same, toInt_ofInt32, wrap32_of_fits (by omega)]
  · rw [Prng.read_write_other _ _ _ _ hw]
    exact h i hi

theorem rawDraw_cursorsDrawn (g : Prng) : CursorsDrawn (rawDraw g).2 :=
  ⟨advance_pos g.inext, advance_pos g.inextp⟩

theorem DrawnFrom.keeps_inRange {g g' : Prng} (h : DrawnFrom g g') (hg : SeedArrayInRange g) :
    SeedArrayInRange g' := by
  induction h with
  | single hd => exact hd ▸ rawDraw_keeps_inRange hg
  | tail _ hd ih => exact hd ▸ rawDraw_keeps_inRange ih

theorem DrawnFrom.cursorsDrawn {g g' : Prng} (h : DrawnFrom g g') : CursorsDrawn g' := by
  cases h with
  | single hd => exact hd ▸ rawDraw_cursorsDrawn _
  | tail _ hd => exact hd ▸ rawDraw_cursorsDrawn _

/-- Settles O48: every command that is not SEED or WRPRNG leaves the context alone or replaces it by one that raw draws
make, and a raw draw keeps the words in range and advances both cursors past 0. -/
theorem drawsKeepTheSeedArrayInRange : Obligations.DrawsKeepTheSeedArrayInRange := by
  intro i s t h hseed hwrite hs
  rcases exec_cases h with ⟨-, -, rfl⟩ | ⟨-, c, rfl⟩ | ⟨u, w, he, rfl⟩
  · exact ⟨hs, fun _ hok => absurd hok codeBlocked_ne_ok⟩
  · exact ⟨hs, fun _ hok => absurd hok c.code_ne_ok⟩
  · cases he with
    | nothing hd => exact ⟨hs, fun hdraw => by simp [hd] at hdraw⟩
    | clear => exact ⟨hs, nofun⟩
    | write => exact absurd rfl (hwrite _ _)
    | seed => exact absurd rfl (hseed _)
    | draw _ hg => exact ⟨hg.keeps_inRange hs, fun _ _ => hg.cursorsDrawn⟩

end Sys2Proof.Machine
end

section
/-! What commands keep: FAULT, the context, SEEDED and the ports (`spec/10_state.md` rules R20, R23, R24). -/

namespace Sys2Proof.Machine

/-- WRPRNG writes SEEDED at index 58 only. -/
theorem writeElement_seeded {s u : State} {idx value : Int} (h : writeElement s idx value = .ok u)
    (hidx : idx ≠ 58) : u.seeded = s.seeded := by
  unfold writeElement at h
  split_ifs at h with hout hword hcursor hval h56 hphase
  · cases h; rfl
  · cases h; rfl
  · cases h; rfl
  · omega

theorem Effect.ports {i : Instr} {s u : State} (h : Effect i s u) :
    u.cmd = s.cmd ∧ u.a = s.a ∧ u.b = s.b ∧ u.host = s.host := by
  cases h with
  | nothing | clear | seed | draw => exact ⟨rfl, rfl, rfl, rfl⟩
  | write hw => rw [writeElement_ok hw]; exact ⟨rfl, rfl, rfl, rfl⟩

theorem Effect.fault {i : Instr} {s u : State} (h : Effect i s u) (hc : i ≠ .clrfault) : u.fault = s.fault := by
  cases h with
  | nothing | seed | draw => rfl
  | clear => exact absurd rfl hc
  | write hw => rw [writeElement_ok hw]

theorem Effect.fault_of_clrfault {s u : State} (h : Effect .clrfault s u) : u.fault = codeOk := by
  cases h with
  | nothing _ hc => exact absurd rfl hc
  | clear => rfl
  | draw hd => cases hd

theorem Effect.prng {i : Instr} {s u : State} (h : Effect i s u) (hd : isDraw i = false)
    (hseed : ∀ n, i ≠ .seed n) (hwrite : ∀ idx v, i ≠ .wrprng idx v) : u.prng = s.prng := by
  cases h with
  | nothing | clear => rfl
  | write => exact absurd rfl (hwrite _ _)
  | seed => exact absurd rfl (hseed _)
  | draw hd' => simp [hd] at hd'

theorem Effect.seeded {i : Instr} {s u : State} (h : Effect i s u)
    (hseed : ∀ n, i ≠ .seed n) (hwrite : ∀ v, i ≠ .wrprng 58 v) : u.seeded = s.seeded := by
  cases h with
  | nothing | clear | draw => rfl
  | @write idx v _ _ hw => exact writeElement_seeded hw fun h58 => hwrite v (h58 ▸ rfl)
  | seed => exact absurd rfl (hseed _)

/-- Settles O15: BLOCKED keeps FAULT, a fault enters it only while it is clear, and a command that ends OK changes it
only if it is CLRFAULT. -/
theorem faultIsStickyUntilClrfault : Obligations.FaultIsStickyUntilClrfault := by
  intro i s t h
  rcases exec_cases h with ⟨hi, hf, rfl⟩ | ⟨hc, c, rfl⟩ | ⟨u, w, he, rfl⟩
  · exact ⟨fun _ _ => rfl, fun hclear => absurd hclear hf, fun hc => absurd hc (ne_clrfault_of_isCompute hi)⟩
  · exact ⟨fun hset _ => if_neg hset, fun hclear => if_pos hclear, fun h => absurd h hc⟩
  · refine ⟨fun _ hc => he.fault hc, fun hclear => ?_, fun hc => (hc ▸ he).fault_of_clrfault⟩
    by_cases hc : i = .clrfault
    · exact (hc ▸ he).fault_of_clrfault
    · exact (he.fault hc).trans hclear

/-- Settles O16: BLOCKED and faults write neither the context nor the ports, and the effects that write them belong to
the named commands. -/
theorem onlyNamedCommandsWriteTheContext : Obligations.OnlyNamedCommandsWriteTheContext := by
  intro i s t h
  rcases exec_cases h with ⟨-, -, rfl⟩ | ⟨-, c, rfl⟩ | ⟨u, w, he, rfl⟩
  · simp
  · simp
  · exact ⟨he.prng, he.seeded, he.ports⟩

end Sys2Proof.Machine
end

section
/-! No command reads RESULT (`spec/10_state.md` rule R20). -/

namespace Sys2Proof.Machine

/-- The state with another word in RESULT. -/
def State.withResult (s : State) (r : Word) : State := { s with result := r }

@[simp] theorem State.withResult_fault (s : State) (r : Word) : (s.withResult r).fault = s.fault := rfl
@[simp] theorem State.withResult_seeded (s : State) (r : Word) : (s.withResult r).seeded = s.seeded := rfl
@[simp] theorem State.withResult_prng (s : State) (r : Word) : (s.withResult r).prng = s.prng := rfl

/-- Completing a command writes RESULT over whatever it held. -/
theorem State.complete_withResult (s : State) (r w : Word) : (s.withResult r).complete w = s.complete w := rfl

theorem writeElement_withResult (s : State) (r : Word) (idx value : Int) :
    writeElement (s.withResult r) idx value = (writeElement s idx value).map (·.withResult r) := by
  unfold writeElement
  split_ifs <;> rfl

/-- Settles O17: a command that ends OK completes, from a state and a value computed without RESULT. -/
theorem noCommandReadsResult : Obligations.NoCommandReadsResult := by
  intro i s t r h hok
  change exec i (s.withResult r) = .next t
  cases i using exec_cases_by_meaning with
  | read i value _ _ hv he =>
    rw [he] at h ⊢
    obtain rfl := control_next h
    have hr : value (s.withResult r) = value s := hv s r
    rw [hr]
    cases hw : value s with
    | ok w => rfl
    | error c => rw [hw] at hok; exact absurd hok c.code_ne_ok
  | clrfault => exact h
  | wrprng idx value =>
    obtain rfl := control_next h
    simp only [exec, execWrprng, writeElement_withResult]
    cases hw : writeElement s idx value with
    | ok u => rfl
    | error c => rw [hw] at hok; exact absurd hok c.code_ne_ok
  | value i v _ _ he =>
    rw [he] at h ⊢
    rcases computeValue_cases h with ⟨hf, w, rfl, rfl⟩ | ⟨-, c, -, rfl⟩ | ⟨-, rfl⟩
    · exact computeValue_ok w hf
    · exact absurd hok c.code_ne_ok
    · exact absurd hok codeBlocked_ne_ok
  | seed n =>
    rcases compute_cases h with ⟨hf, rfl⟩ | ⟨-, rfl⟩
    · exact compute_of_clear _ hf
    · exact absurd hok codeBlocked_ne_ok
  | draw i check draw _ _ _ he =>
    rw [he] at h ⊢
    rcases computeDraw_cases h with ⟨-, rfl⟩ | ⟨-, c, -, rfl⟩ | ⟨-, -, -, rfl⟩ | ⟨-, -, -, c, -, rfl⟩ |
      ⟨hf, rfl, hs, w, g, hg, rfl⟩
    · exact absurd hok codeBlocked_ne_ok
    · exact absurd hok c.code_ne_ok
    · exact absurd hok (FaultCode.code_ne_ok .notSeeded)
    · exact absurd hok c.code_ne_ok
    · exact computeDraw_ok (s := s.withResult r) hf hs hg

end Sys2Proof.Machine
end

section
/-! `S[0]` is never read (`spec/10_state.md` rule R29). -/

namespace Sys2Proof.Machine

theorem Prng.write_comm (g : Prng) {i j : Fin 56} (h : i ≠ j) (v w : Int) :
    (g.write i v).write j w = (g.write j w).write i v := by
  have hne : i.val ≠ j.val := fun e => h (Fin.ext e)
  simp only [Prng.write, Vector.set_comm _ _ hne]

/-- A raw draw reads and writes words under advanced cursors only, so `S[0]` passes through it. -/
theorem rawDraw_write_zero (g : Prng) (v : Int) :
    rawDraw (g.write 0 v) = ((rawDraw g).1, (rawDraw g).2.write 0 v) := by
  have hread : ∀ c, (g.write 0 v).read (advance c) = g.read (advance c) := fun c =>
    Prng.read_write_other g 0 _ v (advance_ne_zero c).symm
  have hwrite : ∀ w, (g.write 0 v).write (advance g.inext) w = (g.write (advance g.inext) w).write 0 v := fun w =>
    Prng.write_comm g (advance_ne_zero _).symm v w
  simp only [rawDraw, Prng.write_inext, Prng.write_inextp, hread, hwrite]
  rfl

theorem RawDraws.write_zero {draw : Prng → Except FaultCode (Word × Prng)} (hd : RawDraws draw) (g : Prng)
    (v : Int) : draw (g.write 0 v) = (draw g).map fun p => (p.1, p.2.write 0 v) := by
  cases hd with
  | one value =>
    simp only [oneDraw, rawDraw_write_zero]
    cases value (rawDraw g).1 <;> rfl
  | two value =>
    simp only [twoDraws, rawDraw_write_zero]
    cases value (rawDraw g).1 (rawDraw (rawDraw g).2).1 <;> rfl

/-- A draw command whose check passes faults before the generator is seeded. -/
theorem computeDraw_unseeded {s : State} {draw : Prng → Except FaultCode (Word × Prng)} (hf : s.fault = codeOk)
    (hs : s.seeded = false) : computeDraw s (.ok ()) draw = .next (s.raise .notSeeded) := by
  rw [computeDraw, compute_of_clear _ hf]
  simp only [drawGuard, hs]
  rfl

/-- A seeded draw command whose check passes takes the fault of its draw. -/
theorem computeDraw_error {s : State} {draw : Prng → Except FaultCode (Word × Prng)} {c : FaultCode}
    (hf : s.fault = codeOk) (hs : s.seeded = true) (hd : draw s.prng = .error c) :
    computeDraw s (.ok ()) draw = .next (s.raise c) := by
  rw [computeDraw, compute_of_clear _ hf]
  simp only [drawGuard, hs, hd]
  rfl

/-- A change of the context that a draw neither reads nor undoes passes through the draw command. -/
theorem computeDraw_map_prng {s t : State} {check : Except FaultCode Unit}
    {draw : Prng → Except FaultCode (Word × Prng)} {f : Prng → Prng}
    (hdraw : draw (f s.prng) = (draw s.prng).map fun p => (p.1, f p.2)) (h : computeDraw s check draw = .next t) :
    computeDraw { s with prng := f s.prng } check draw = .next { t with prng := f t.prng } := by
  rcases computeDraw_cases h with ⟨hf, rfl⟩ | ⟨hf, c, rfl, rfl⟩ | ⟨hf, rfl, hs, rfl⟩ | ⟨hf, rfl, hs, c, hg, rfl⟩ |
    ⟨hf, rfl, hs, w, g, hg, rfl⟩
  · exact compute_of_fault _ hf
  · exact compute_of_clear _ hf
  · exact computeDraw_unseeded (s := { s with prng := f s.prng }) hf hs
  · exact computeDraw_error (s := { s with prng := f s.prng }) hf hs (by rw [hdraw, hg]; rfl)
  · exact computeDraw_ok (s := { s with prng := f s.prng }) hf hs (by rw [hdraw, hg]; rfl)

theorem draw_write_zero {i : Instr} {s t : State} (v : Int) (hi : isDraw i = true) (h : exec i s = .next t) :
    exec i { s with prng := s.prng.write 0 v } = .next { t with prng := t.prng.write 0 v } := by
  cases i using exec_cases_by_meaning with
  | read i _ hd => simp [hd] at hi
  | clrfault | wrprng | seed => cases hi
  | value i _ _ hd => simp [hd] at hi
  | draw i check draw _ _ hr he =>
    rw [he] at h ⊢
    exact computeDraw_map_prng (f := (·.write 0 v)) (hr.write_zero s.prng v) h

theorem exec_seed_of_clear (n : Int) {s : State} (h : s.fault = codeOk) :
    exec (.seed n) s =
      .next (({ s with prng := seedContext n, seeded := true } : State).complete resultZero) :=
  compute_of_clear _ h

theorem seedContext_read_zero (n : Int) : (seedContext n).read 0 = 0 :=
  Prng.read_write_same _ 0 0

/-- Settles O49: `S[0]` passes through every draw, and SEED replaces the whole context, with `S[0] = 0`. -/
theorem wordZeroIsNeverRead : Obligations.WordZeroIsNeverRead :=
  ⟨fun _ _ _ v hi h => draw_write_zero v hi h,
    fun n _ s hf => ⟨_, exec_seed_of_clear n (s := { s with prng := s.prng.write 0 _ }) hf, exec_seed_of_clear n hf,
      seedContext_read_zero n⟩⟩

end Sys2Proof.Machine
end

section
/-! Saving the context with RDPRNG and restoring it with WRPRNG (`spec/10_state.md` rules R32, R33). -/

namespace Sys2Proof.Machine

open Sys2Proof.Claims

/-! ## What RDPRNG reads at each state index -/

theorem fin56_ofNat_toNat (i : Fin 56) : Fin.ofNat 56 (i.val : Int).toNat = i := by
  ext
  simp

theorem readBack_word (s : State) (i : Fin 56) : readBack s i.val = resultInt (s.prng.read i) := by
  have hout : ¬ ((i.val : Int) < 0 ∨ (i.val : Int) > 58) := by omega
  have hword : (i.val : Int) ≤ 55 := by omega
  simp only [readBack, exec, execRdprng, readElement, if_neg hout, if_pos hword, fin56_ofNat_toNat]
  rfl

theorem readBack_inext (s : State) : readBack s 56 = resultInt s.prng.inext.val := rfl

theorem readBack_inextp (s : State) : readBack s 57 = resultInt s.prng.inextp.val := rfl

theorem readBack_seeded (s : State) : readBack s 58 = seededWord s.seeded := rfl

/-- The regions of the state index space (rule R32). -/
theorem stateIndex_cases {k : Nat} (h : k < 59) : (∃ i : Fin 56, k = i.val) ∨ k = 56 ∨ k = 57 ∨ k = 58 := by
  by_cases hw : k < 56
  · exact .inl ⟨⟨k, hw⟩, rfl⟩
  · omega

/-! ## The word read back determines the element -/

theorem resultInt_read_toInt (g : Prng) (i : Fin 56) : (resultInt (g.read i)).toInt = g.read i := by
  have := g.read_range i
  exact toInt_ofInt64 (by omega)

theorem resultInt_cursor_toInt (c : Fin 56) : (resultInt c.val).toInt = c.val :=
  toInt_ofInt64 (by omega)

theorem seededWord_toInt (b : Bool) : (seededWord b).toInt = if b then 1 else 0 := by
  cases b <;> decide

theorem Prng.ext_read {g g' : Prng} (hread : ∀ i, g.read i = g'.read i) (hi : g.inext = g'.inext)
    (hp : g.inextp = g'.inextp) : g = g' := by
  obtain ⟨words, c, d⟩ := g
  obtain ⟨words', c', d'⟩ := g'
  obtain rfl : c = c' := hi
  obtain rfl : d = d' := hp
  obtain rfl : words = words' := Vector.ext fun i hlt => BitVec.eq_of_toInt_eq (hread ⟨i, hlt⟩)
  rfl

/-- Two states that RDPRNG cannot tell apart have the same context and phase. -/
theorem context_eq_of_readBack_eq {s t : State} (h : ∀ k < 59, readBack s k = readBack t k) :
    s.prng = t.prng ∧ s.seeded = t.seeded := by
  have hcursor : ∀ c d : Fin 56, resultInt c.val = resultInt d.val → c = d := fun c d e => by
    have := congrArg BitVec.toInt e
    rw [resultInt_cursor_toInt, resultInt_cursor_toInt] at this
    omega
  refine ⟨Prng.ext_read (fun i => ?_) (hcursor _ _ (h 56 (by decide))) (hcursor _ _ (h 57 (by decide))), ?_⟩
  · have := congrArg BitVec.toInt (h i.val (by omega))
    rwa [readBack_word, readBack_word, resultInt_read_toInt, resultInt_read_toInt] at this
  · have := congrArg BitVec.toInt (h 58 (by decide))
    rw [readBack_seeded, readBack_seeded, seededWord_toInt, seededWord_toInt] at this
    cases hs : s.seeded <;> cases ht : t.seeded <;> simp [hs, ht] at this ⊢

/-! ## WRPRNG of a saved element -/

theorem exec_wrprng_ok {idx value : Int} {s u : State} (h : writeElement s idx value = .ok u) :
    exec (.wrprng idx value) s = .next (u.complete resultZero) := by
  simp only [exec, execWrprng, h]
  rfl

theorem writeElement_word (s : State) (i : Fin 56) (value : Int) :
    writeElement s i.val value = .ok { s with prng := s.prng.write i value } := by
  have hout : ¬ ((i.val : Int) < 0 ∨ (i.val : Int) > 58) := by omega
  have hword : (i.val : Int) ≤ 55 := by omega
  simp only [writeElement, if_neg hout, if_pos hword, fin56_ofNat_toNat]

theorem writeElement_inext (s : State) (c : Fin 56) :
    writeElement s 56 c.val = .ok { s with prng := { s.prng with inext := c } } := by
  simpa [writeElement] using Nat.le_of_lt_succ c.isLt

theorem writeElement_inextp (s : State) (c : Fin 56) :
    writeElement s 57 c.val = .ok { s with prng := { s.prng with inextp := c } } := by
  simpa [writeElement] using Nat.le_of_lt_succ c.isLt

theorem writeElement_phase (s : State) (b : Bool) :
    writeElement s 58 (if b then 1 else 0) = .ok { s with seeded := b } := by
  cases b <;> rfl

/-- The element RDPRNG reads at an index depends on that element only. -/
theorem readBack_congr {s t : State} {k : Nat} (hk : k < 59)
    (hword : ∀ i : Fin 56, k = i.val → s.prng.read i = t.prng.read i)
    (hinext : k = 56 → s.prng.inext = t.prng.inext) (hinextp : k = 57 → s.prng.inextp = t.prng.inextp)
    (hseeded : k = 58 → s.seeded = t.seeded) : readBack s k = readBack t k := by
  rcases stateIndex_cases hk with ⟨i, rfl⟩ | rfl | rfl | rfl
  · rw [readBack_word, readBack_word, hword i rfl]
  · rw [readBack_inext, readBack_inext, hinext rfl]
  · rw [readBack_inextp, readBack_inextp, hinextp rfl]
  · rw [readBack_seeded, readBack_seeded, hseeded rfl]

/-- Writing a saved element back restores that element and leaves the others alone. -/
theorem wrprng_readBack (saved t : State) {k : Nat} (hk : k < 59) :
    ∃ t', exec (.wrprng k (readBack saved k).toInt) t = .next t' ∧ readBack t' k = readBack saved k ∧
      ∀ j < 59, j ≠ k → readBack t' j = readBack t j := by
  rcases stateIndex_cases hk with ⟨i, rfl⟩ | rfl | rfl | rfl
  · rw [readBack_word, resultInt_read_toInt]
    refine ⟨_, exec_wrprng_ok (writeElement_word t i _), ?_, fun j hj hne => ?_⟩
    · rw [readBack_word, State.complete_prng, Prng.read_write_same, toInt_ofInt32,
        wrap32_of_fits (saved.prng.read_range i)]
    · exact readBack_congr hj (fun i' e => Prng.read_write_other _ _ _ _ fun h => hne (h ▸ e)) (fun _ => rfl)
        (fun _ => rfl) fun _ => rfl
  · rw [readBack_inext, resultInt_cursor_toInt]
    exact ⟨_, exec_wrprng_ok (writeElement_inext t _), rfl, fun j hj hne =>
      readBack_congr hj (fun _ _ => rfl) (fun e => absurd e hne) (fun _ => rfl) fun _ => rfl⟩
  · rw [readBack_inextp, resultInt_cursor_toInt]
    exact ⟨_, exec_wrprng_ok (writeElement_inextp t _), rfl, fun j hj hne =>
      readBack_congr hj (fun _ _ => rfl) (fun _ => rfl) (fun e => absurd e hne) fun _ => rfl⟩
  · rw [readBack_seeded, seededWord_toInt]
    exact ⟨_, exec_wrprng_ok (writeElement_phase t _), rfl, fun j hj hne =>
      readBack_congr hj (fun _ _ => rfl) (fun _ => rfl) (fun _ => rfl) fun e => absurd e hne⟩

theorem writeBack_cons {saved : Nat → Word} {k : Nat} {t t' : State}
    (h : exec (.wrprng k (saved k).toInt) t = .next t') (rest : List Nat) :
    writeBack saved (k :: rest) t = writeBack saved rest t' := by
  rw [writeBack, h]

/-- After the write-back an element has its saved value if the order names it, or if it had that value before. -/
theorem readBack_writeBack (saved : State) {order : List Nat} (hlt : ∀ k ∈ order, k < 59) (t : State) {j : Nat}
    (hj : j < 59) (h : j ∈ order ∨ readBack t j = readBack saved j) :
    readBack (writeBack (readBack saved) order t) j = readBack saved j := by
  induction order generalizing t with
  | nil => exact h.resolve_left List.not_mem_nil
  | cons k rest ih =>
    obtain ⟨hk, hrest⟩ := List.forall_mem_cons.mp hlt
    obtain ⟨t', he, hsame, hother⟩ := wrprng_readBack saved t hk
    rw [writeBack_cons he]
    refine ih hrest t' ?_
    by_cases hjk : j = k
    · exact .inr (hjk ▸ hsame)
    · exact h.imp (fun hm => (List.mem_cons.mp hm).resolve_left hjk) (hother j hj hjk).trans

/-- Settles O23, by induction on the order of the writes: every element is written and reads as it was saved. -/
theorem writingBackInAnyOrderRestoresTheContext : Obligations.WritingBackInAnyOrderRestoresTheContext :=
  fun saved t _ hlt hall =>
    context_eq_of_readBack_eq fun k hk => readBack_writeBack saved hlt t hk (.inl (hall k hk))

end Sys2Proof.Machine
end

section
/-! Reset (`spec/10_state.md` rule R35, `spec/70_reset_and_hazards.md` rule R340). -/

namespace Sys2Proof.Machine

/-- A reset event, between commands or during one, leaves the reset state and the rest of the host's events. -/
theorem step_reset {s : State} {e : HostEvent} {rest : List HostEvent} (h : s.host = e :: rest)
    (he : e = .reset ∨ ∃ c, e = .resetDuring c) : step s = .next (State.resetKeeping rest) := by
  rcases he with rfl | ⟨c, rfl⟩ <;> simp [step, hostStep, h]

theorem reset_seedArray (i : Fin 56) : State.reset.prng.seedArray[i] = 0#32 := by
  simp [State.reset, Prng.reset]

/-- Settles O8: both reset events lead to the reset state, whose fields hold the values of rule R35. -/
theorem resetPutsEveryElementInItsResetValue : Obligations.ResetPutsEveryElementInItsResetValue :=
  fun _ _ _ h he => ⟨_, step_reset h he, rfl, rfl, rfl, rfl, reset_seedArray, rfl, rfl, rfl⟩

/-- Settles O10: both codes are 0 after reset. -/
theorem resetCodesAreLegal : Obligations.ResetCodesAreLegal :=
  ⟨Nat.zero_le 9, Nat.zero_le 8, fun h => absurd rfl h⟩

end Sys2Proof.Machine
end

section
/-! Runs of the block (`spec/20_memory.md` rule R66). The block neither reads nor writes the host's list, so a step on a
list is the issue of its first command, whatever stands behind it. -/

namespace Sys2Proof.Machine

/-- The state with another list of events for the host. -/
def State.withHost (s : State) (l : List HostEvent) : State := { s with host := l }

@[simp] theorem State.withHost_host (s : State) (l : List HostEvent) : (s.withHost l).host = l := rfl

theorem State.withHost_self (s : State) : s.withHost s.host = s := rfl

/-! ## The host's list passes through every command -/

/-- A control command that reads a word. -/
theorem controlRead_withHost (s : State) (r : Except FaultCode Word) (l : List HostEvent) :
    controlCommand (s.withHost l) (r.map fun w => (s.withHost l, w)) =
      .next ((s.finish (r.map fun w => (s, w))).withHost l) := by
  cases r <;> rfl

theorem writeElement_withHost (s : State) (l : List HostEvent) (idx value : Int) :
    writeElement (s.withHost l) idx value = (writeElement s idx value).map (·.withHost l) := by
  unfold writeElement
  split_ifs <;> rfl

theorem computeValue_withHost {s t : State} {r : Except FaultCode Word} (h : computeValue s r = .next t)
    (l : List HostEvent) : computeValue (s.withHost l) r = .next (t.withHost l) := by
  rcases computeValue_cases h with ⟨hf, w, rfl, rfl⟩ | ⟨hf, c, rfl, rfl⟩ | ⟨hf, rfl⟩
  · exact computeValue_ok (s := s.withHost l) w hf
  · exact computeValue_error (s := s.withHost l) c hf
  · exact compute_of_fault (s := s.withHost l) _ hf

theorem computeDraw_withHost {s t : State} {check : Except FaultCode Unit}
    {draw : Prng → Except FaultCode (Word × Prng)} (h : computeDraw s check draw = .next t) (l : List HostEvent) :
    computeDraw (s.withHost l) check draw = .next (t.withHost l) := by
  rcases computeDraw_cases h with ⟨hf, rfl⟩ | ⟨hf, c, rfl, rfl⟩ | ⟨hf, rfl, hs, rfl⟩ | ⟨hf, rfl, hs, c, hg, rfl⟩ |
    ⟨hf, rfl, hs, w, g, hg, rfl⟩
  · exact compute_of_fault (s := s.withHost l) _ hf
  · exact compute_of_clear (s := s.withHost l) _ hf
  · exact computeDraw_unseeded (s := s.withHost l) hf hs
  · exact computeDraw_error (s := s.withHost l) hf hs hg
  · exact computeDraw_ok (s := s.withHost l) hf hs hg

theorem exec_withHost {i : Instr} {s t : State} (h : exec i s = .next t) (l : List HostEvent) :
    exec i (s.withHost l) = .next (t.withHost l) := by
  cases i with
  | nop | rdstatus | clrfault => obtain rfl := control_next h; rfl
  | rdprng idx =>
    obtain rfl := control_next h
    exact controlRead_withHost s (readElement s idx) l
  | wrprng idx value =>
    obtain rfl := control_next h
    simp only [exec, execWrprng, writeElement_withHost]
    cases writeElement s idx value <;> rfl
  | add | sub | mul | div | floor | round | sign | abs | lut | sin | cos | sqrt | log2 | ln | exp =>
    exact computeValue_withHost h l
  | seed n =>
    rcases compute_cases h with ⟨hf, rfl⟩ | ⟨hf, rfl⟩
    · exact exec_seed_of_clear n (s := s.withHost l) hf
    · exact compute_of_fault (s := s.withHost l) _ hf
  | next | nextmax | nextrange | gauss => exact computeDraw_withHost h l

/-- No command stops the block (rule R345). -/
theorem exec_next (i : Instr) (s : State) : ∃ t, exec i s = .next t := by
  cases i using exec_cases_by_meaning with
  | read i _ _ _ _ he => exact ⟨_, he s⟩
  | clrfault | wrprng | seed => exact ⟨_, rfl⟩
  | value i _ _ _ he => exact ⟨_, he s⟩
  | draw i _ _ _ _ _ he => exact ⟨_, he s⟩

/-! ## The triple in the ports -/

/-- What the triple in the ports does: the command it decodes to, or ILLEGAL_COMMAND. -/
theorem runPorts_cases (s : State) :
    (∃ i, decode s.ports = .ok i ∧ runPorts s = exec i s) ∨
      (∃ e, decode s.ports = .error e ∧ runPorts s = .next (s.raise .illegalCommand)) := by
  cases hd : decode s.ports with
  | ok i => exact .inl ⟨i, rfl, runPorts_ok hd⟩
  | error e => exact .inr ⟨e, rfl, runPorts_error hd⟩

theorem runPorts_next (s : State) : ∃ t, runPorts s = .next t := by
  rcases runPorts_cases s with ⟨i, -, h⟩ | ⟨e, -, h⟩
  · exact h ▸ exec_next i s
  · exact ⟨_, h⟩

theorem runPorts_withHost {s t : State} (h : runPorts s = .next t) (l : List HostEvent) :
    runPorts (s.withHost l) = .next (t.withHost l) := by
  rcases runPorts_cases s with ⟨i, hd, hr⟩ | ⟨e, hd, hr⟩
  · exact (runPorts_ok (s := s.withHost l) hd).trans (exec_withHost (hr ▸ h) l)
  · obtain rfl : s.raise .illegalCommand = t := by simpa [hr] using h
    exact runPorts_error (s := s.withHost l) hd

theorem runPorts_keeps_host {s t : State} (h : runPorts s = .next t) : t.host = s.host := by
  have hself : t = t.withHost s.host := Host.Outcome.next.inj (h.symm.trans (runPorts_withHost h s.host))
  rw [hself, State.withHost_host]

/-! ## Issuing a command -/

theorem runPorts_latch (c : Command) (s : State) : runPorts (s.latch c s.host) = .next (issue c s) := by
  obtain ⟨t, h⟩ := runPorts_next (s.latch c s.host)
  simp [issue, h]

theorem issue_host (c : Command) (s : State) : (issue c s).host = s.host :=
  runPorts_keeps_host (s := s.latch c s.host) (runPorts_latch c s)

/-- A step on a command issues it and leaves the rest of the list to the host. -/
theorem step_withHost_command (c : Command) (rest : List HostEvent) (s : State) :
    step (s.withHost (.command c :: rest)) = .next ((issue c s).withHost rest) :=
  (step_command rfl).trans (runPorts_withHost (runPorts_latch c s) rest)

/-! ## Runs -/

theorem core_run_succ {s t : State} (h : step s = .next t) (k : Nat) :
    Host.Core.run core (k + 1) s = Host.Core.run core k t := by
  change core.step s = .next t at h
  simp only [Host.Core.run, h]

/-- The machine issues the commands of its list one by one, as many steps as there are commands. -/
theorem run_commands (l : List Command) {s : State} (hs : s.host = []) :
    Host.Core.run core l.length (s.withHost (l.map .command)) = .next (runProgram l s).1 := by
  induction l generalizing s with
  | nil =>
    change Host.Outcome.next (s.withHost []) = .next s
    rw [← hs, s.withHost_self]
  | cons c l ih =>
    calc Host.Core.run core (l.length + 1) (s.withHost (.command c :: l.map .command))
      _ = Host.Core.run core l.length ((issue c s).withHost (l.map .command)) :=
        core_run_succ (step_withHost_command c _ s) _
      _ = .next (runProgram l (issue c s)).1 := ih ((issue_host c s).trans hs)

theorem runProgram_append (l m : List Command) (s : State) :
    runProgram (l ++ m) s =
      ((runProgram m (runProgram l s).1).1, (runProgram l s).2 ++ (runProgram m (runProgram l s).1).2) := by
  induction l generalizing s with
  | nil => rfl
  | cons c l ih => simp [runProgram, ih]

/-- Settles O11, by induction on the list of commands: each step issues the first command of the list. -/
theorem runIsCompositionInIssueOrder : Obligations.RunIsCompositionInIssueOrder :=
  ⟨fun l _ hs => run_commands l hs, runProgram_append⟩

end Sys2Proof.Machine
end

section
/-! Operand words (`spec/30_encoding.md` rule R82): the value a port word is read as, and the word a value is written
as. -/

namespace Sys2Proof.Machine

theorem fits64_iff {v : Int} : fits64 v = true ↔ -9223372036854775808 ≤ v ∧ v ≤ 9223372036854775807 :=
  decide_eq_true_iff

theorem fits32_iff {v : Int} : fits32 v = true ↔ -2147483648 ≤ v ∧ v ≤ 2147483647 :=
  decide_eq_true_iff

@[simp] theorem fits64_toInt (w : Word) : fits64 w.toInt = true := by
  have hlo := w.le_toInt
  have hhi := w.toInt_lt
  exact fits64_iff.mpr (by omega)

theorem toInt_operandWord {v : Int} (h : fits64 v = true) : (operandWord v).toInt = v :=
  toInt_ofInt64 (fits64_iff.mp h)

/-- The upper half of the word drops out of an I32 operand. -/
theorem readI32_eq_bmod (w : Word) : readI32 w = Int.bmod w.toNat 4294967296 := by
  rw [readI32, BitVec.toInt_eq_toNat_bmod, BitVec.extractLsb'_toNat, Nat.shiftRight_zero]
  exact Int.emod_bmod w.toNat (2 ^ 32)

theorem readI32_range (w : Word) : -2147483648 ≤ readI32 w ∧ readI32 w ≤ 2147483647 := by
  have hlo := (w.extractLsb' 0 32).le_toInt
  have hhi := (w.extractLsb' 0 32).toInt_lt
  simp only [readI32]
  omega

@[simp] theorem fits32_readI32 (w : Word) : fits32 (readI32 w) = true :=
  fits32_iff.mpr (readI32_range w)

theorem readI32_emod (w : Word) : readI32 w % 4294967296 = w.toNat % 4294967296 := by
  rw [readI32_eq_bmod]
  exact Int.bmod_emod

/-- The sign extension of an I32 value reads back as the value: range and residue determine it. -/
theorem readI32_operandWord {v : Int} (h : fits32 v = true) : readI32 (operandWord v) = v := by
  have hv := fits32_iff.mp h
  have hrange := readI32_range (operandWord v)
  have hmod := readI32_emod (operandWord v)
  have hword : ((operandWord v).toNat : Int) = v % 18446744073709551616 := by
    simp only [operandWord, BitVec.toNat_ofInt]
    omega
  omega

end Sys2Proof.Machine
end

section
/-! The decoder and the encoder (`spec/30_encoding.md` rules R81, R84, R85, R87). A command word is legal exactly when it
is an opcode of rule R84 with reserved bits zero, and then the command it selects has that opcode. -/

namespace Sys2Proof.Machine

open Sys2Proof.Claims

/-! ## The fields of a command word -/

@[simp] theorem rsvField_setWidth (op : BitVec 8) : rsvField (op.setWidth 32) = 0#24 := by
  apply BitVec.eq_of_toNat_eq
  simp only [rsvField, BitVec.extractLsb'_toNat, BitVec.toNat_setWidth, Nat.shiftRight_eq_div_pow, BitVec.toNat_ofNat]
  omega

@[simp] theorem opField_setWidth (op : BitVec 8) : opField (op.setWidth 32) = op := by
  apply BitVec.eq_of_toNat_eq
  simp only [opField, BitVec.extractLsb'_toNat, BitVec.toNat_setWidth, Nat.shiftRight_zero]
  omega

/-- A command word with reserved bits zero is its opcode. -/
theorem setWidth_opField {cmd : CmdWord} (h : rsvField cmd = 0#24) : (opField cmd).setWidth 32 = cmd := by
  have hrsv : cmd.toNat / 256 % 16777216 = 0 := by
    simpa [rsvField, BitVec.extractLsb'_toNat, Nat.shiftRight_eq_div_pow] using congrArg BitVec.toNat h
  apply BitVec.eq_of_toNat_eq
  simp only [opField, BitVec.toNat_setWidth, BitVec.extractLsb'_toNat, Nat.shiftRight_zero]
  omega

/-! ## What the decoder answers -/

theorem decode_setWidth (op : BitVec 8) (a b : Word) : decode ⟨op.setWidth 32, a, b⟩ = decodeOp op a b := by
  simp [decode]

theorem decode_sub (a b : Word) : decode ⟨0x11#32, a, b⟩ = .ok (.sub a.toInt b.toInt) :=
  decode_setWidth 0x11#8 a b

theorem decode_mul (a b : Word) : decode ⟨0x12#32, a, b⟩ = .ok (.mul a.toInt b.toInt) :=
  decode_setWidth 0x12#8 a b

theorem decodeOp_opcode {op : BitVec 8} {a b : Word} {i : Instr} (h : decodeOp op a b = .ok i) : opcode i = op := by
  unfold decodeOp at h
  split at h <;> cases h <;> rfl

/-- The operands of the command an opcode selects are values of their kinds. -/
theorem decodeOp_wf {op : BitVec 8} {a b : Word} {i : Instr} (h : decodeOp op a b = .ok i) : i.wf = true := by
  unfold decodeOp at h
  split at h <;> cases h <;> simp [Instr.wf, readQ, readIdx, readInt]

theorem decode_ok_iff {c : Command} {i : Instr} :
    decode c = .ok i ↔ c.cmd = (opcode i).setWidth 32 ∧ decodeOp (opcode i) c.a c.b = .ok i := by
  constructor
  · intro h
    by_cases hr : rsvField c.cmd = 0#24
    · rw [decode, if_pos hr] at h
      rw [decodeOp_opcode h, setWidth_opField hr]
      exact ⟨rfl, h⟩
    · rw [decode, if_neg hr] at h
      cases h
  · rintro ⟨hcmd, hop⟩
    simp [decode, hcmd, hop]

theorem opcode_mem_legalWords (i : Instr) : (opcode i).setWidth 32 ∈ legalWords := by
  cases i <;> simp [opcode, legalWords]

theorem decode_of_mem_legalWords {cmd : CmdWord} (h : cmd ∈ legalWords) (a b : Word) :
    ∃ i, decode ⟨cmd, a, b⟩ = .ok i := by
  have hrsv : ∀ w ∈ legalWords, rsvField w = 0#24 := by simp [legalWords, rsvField]
  rw [← setWidth_opField (hrsv cmd h), decode_setWidth]
  fin_cases h <;> exact ⟨_, rfl⟩

theorem decode_of_not_mem_legalWords {c : Command} (h : c.cmd ∉ legalWords) : ∃ e, decode c = .error e := by
  cases hd : decode c with
  | ok i => exact absurd ((decode_ok_iff.mp hd).1 ▸ opcode_mem_legalWords i) h
  | error e => exact ⟨e, rfl⟩

/-! ## Decoding what the encoder wrote -/

/-- Each operand word is read in the kind it was written in. -/
theorem decodeOp_operandWords {i : Instr} (h : i.wf = true) : decodeOp (opcode i) (wordA i) (wordB i) = .ok i := by
  cases i with
  | nop | rdstatus | clrfault | next | gauss => rfl
  | rdprng | lut | floor | round | sign | abs | sin | cos | sqrt | log2 | ln | exp =>
    simp [opcode, decodeOp, wordA, readQ, readIdx, toInt_operandWord h]
  | wrprng | add | sub | mul | div =>
    obtain ⟨ha, hb⟩ := Bool.and_eq_true_iff.mp h
    simp [opcode, decodeOp, wordA, wordB, readQ, readIdx, readInt, toInt_operandWord ha, toInt_operandWord hb]
  | seed | nextmax => simp [opcode, decodeOp, wordA, readI32_operandWord h]
  | nextrange =>
    obtain ⟨ha, hb⟩ := Bool.and_eq_true_iff.mp h
    simp [opcode, decodeOp, wordA, wordB, readI32_operandWord ha, readI32_operandWord hb]

/-- Settles O1: the command word carries the opcode, and each operand word reads back as its operand. -/
theorem decodeOfEncode : Obligations.DecodeOfEncode :=
  fun i h => (decode_setWidth (opcode i) (wordA i) (wordB i)).trans (decodeOp_operandWords h)

/-- Settles O2: a legal word decodes to a command of its opcode; any other word raises ILLEGAL_COMMAND. -/
theorem illegalWordsFaultAndLegalWordsDecode : Obligations.IllegalWordsFaultAndLegalWordsDecode := by
  intro c
  refine ⟨fun hlegal => ?_, fun hillegal s rest hs => ?_⟩
  · obtain ⟨i, hi⟩ := decode_of_mem_legalWords hlegal c.a c.b
    exact ⟨i, hi, (decode_ok_iff.mp hi).1⟩
  · obtain ⟨e, he⟩ := decode_of_not_mem_legalWords hillegal
    exact (step_command hs).trans (runPorts_error he)

/-- Settles O3: the decoder reads each operand in the range of its kind. -/
theorem decodedOperandsAreInRange : Obligations.DecodedOperandsAreInRange :=
  fun _ _ h => decodeOp_wf (decode_ok_iff.mp h).2

/-- Settles O4: an I32 operand has the range and the residue of the low half of its word. -/
theorem upperHalfOfI32OperandIgnored : Obligations.UpperHalfOfI32OperandIgnored := by
  intro a b
  obtain ⟨ha_lo, ha_hi⟩ := readI32_range a
  obtain ⟨hb_lo, hb_hi⟩ := readI32_range b
  exact ⟨⟨_, decode_setWidth 0x30#8 a b, ha_lo, ha_hi, readI32_emod a⟩,
    ⟨_, decode_setWidth 0x32#8 a b, ha_lo, ha_hi, readI32_emod a⟩,
    ⟨_, _, decode_setWidth 0x33#8 a b, ha_lo, ha_hi, hb_lo, hb_hi, readI32_emod a, readI32_emod b⟩⟩

/-- Settles O5, by evaluating the decoder on the six words. -/
theorem writtenOutWordsDecode : Obligations.WrittenOutWordsDecode :=
  ⟨rfl, rfl, rfl, rfl, rfl, rfl⟩

/-- Settles O6: the step latches the triple, and the block runs the command it decodes to. -/
theorem stepRunsTheDecodedCommand : Obligations.StepRunsTheDecodedCommand :=
  fun _ _ _ _ hs hd => (step_command hs).trans (runPorts_ok hd)

end Sys2Proof.Machine
end

section
/-! The assembler's literals (`spec/30_encoding.md` rule R88). -/

namespace Sys2Proof.Machine

/-- `nearestEven n d` is an integer nearest `n / d`, and the even one of two. -/
theorem nearestEven_nearest (n : Nat) {d : Nat} (hd : 0 < d) :
    2 * |(n : Int) - nearestEven n d * d| ≤ d ∧
      (2 * |(n : Int) - nearestEven n d * d| = d → nearestEven n d % 2 = 0) := by
  have hdiv : (n : Int) = (n / d : Nat) * d + (n % d : Nat) := by
    exact_mod_cast (Nat.div_add_mod' n d).symm
  have hlt := Nat.mod_lt n hd
  have hdown : |(n : Int) - (n / d : Nat) * d| = (n % d : Nat) := by
    rw [abs_of_nonneg (by omega)]
    omega
  have hup : |(n : Int) - (n / d + 1 : Nat) * d| = d - (n % d : Nat) := by
    rw [Nat.cast_succ, add_one_mul, abs_of_nonpos (by omega)]
    omega
  unfold nearestEven
  split_ifs <;> simp only [hdown, hup] <;> omega

theorem asmValue_fixed (negative : Bool) (n scale : Nat) :
    asmValue (.fixed negative n scale) =
      if negative then -(nearestEven (n * 4294967296) scale : Int) else nearestEven (n * 4294967296) scale := rfl

/-- Settles O57: the literal's magnitude is `nearestEven`, and a Q operand word holds 64 bits. -/
theorem fixedLiteralIsNearestTiesToEven : Obligations.FixedLiteralIsNearestTiesToEven := by
  intro negative n k
  obtain ⟨hnear, htie⟩ := nearestEven_nearest (n * 4294967296) (pow_pos (by decide : 0 < 10) k)
  push_cast at hnear htie
  refine ⟨_, _, rfl, asmValue_fixed negative n (10 ^ k), hnear, htie, fun hlo hhi => ?_, fun hout => ?_⟩
  · exact assembleWord_of_fits (fits64_iff.mpr ⟨hlo, hhi⟩)
  · exact assembleWord_of_not_fits (Bool.eq_false_iff.mpr fun hfits => by
      have := fits64_iff.mp hfits
      omega)

end Sys2Proof.Machine
end

section
/-! The pseudo-instructions (`spec/30_encoding.md` rule R89): the triples they assemble to, and the effect of those. -/

namespace Sys2Proof.Machine

open Sys2Proof.Claims

/-! ## The triples -/

/-- A mnemonic of the table with two operands in range. -/
theorem assembleCommand_two {name : List Char} {mnemonic : String} {op : BitVec 8} {ka kb : OperandKind}
    {x y : AsmOperand} (hrow : opcodeTable.find? (fun row => row.1.toList = name) = some (mnemonic, op, ka, kb))
    (hx : operandFits ka (asmValue x) = true) (hy : operandFits kb (asmValue y) = true) :
    assembleCommand name [x, y] =
      some ⟨op.setWidth 32, operandWord (asmValue x), operandWord (asmValue y)⟩ := by
  simp [assembleCommand, hrow, assembleWord_of_fits hx, assembleWord_of_fits hy]

/-! ## The effects -/

/-- The host issues a triple that decodes. -/
theorem runPorts_command {c : Command} {i : Instr} (h : decode c = .ok i) (s : State) :
    runPorts (s.latch c s.host) = exec i (s.latch c s.host) :=
  runPorts_ok h

theorem toInt_resultQ_sat64 (v : Int) : (resultQ (sat64 v)).toInt = clamp64 v :=
  (toInt_ofInt64 (sat64_range v)).trans (sat64_eq_clamp v)

theorem exec_sub_of_clear (a b : Int) {s : State} (h : s.fault = codeOk) :
    exec (.sub a b) s = .next (s.complete (resultQ (sat64 (a - b)))) :=
  computeValue_ok _ h

theorem exec_mul_of_clear (a b : Int) {s : State} (h : s.fault = codeOk) :
    exec (.mul a b) s = .next (s.complete (resultQ (sat64 (a * b / 4294967296)))) :=
  computeValue_ok _ h

theorem exec_rdprng_ok {idx : Int} {s : State} {w : Word} (h : readElement s idx = .ok w) :
    exec (.rdprng idx) s = .next (s.complete w) :=
  congrArg (fun r : Except FaultCode Word => controlCommand s (r.map fun w => (s, w))) h

theorem resultInt_cursor (c : Fin 56) : resultInt c.val = BitVec.ofNat 64 c.val :=
  BitVec.ofInt_natCast 64 c.val

theorem readElement_inext (s : State) : readElement s 56 = .ok (BitVec.ofNat 64 s.prng.inext.val) :=
  congrArg Except.ok (resultInt_cursor s.prng.inext)

theorem readElement_inextp (s : State) : readElement s 57 = .ok (BitVec.ofNat 64 s.prng.inextp.val) :=
  congrArg Except.ok (resultInt_cursor s.prng.inextp)

theorem clamp64_nonneg {v : Int} (h : 0 ≤ v) : 0 ≤ clamp64 v := by
  simp only [clamp64]
  omega

/-- NEG is SUB from 0: saturating negation. -/
theorem runPorts_neg (w : Word) {s : State} (h : s.fault = codeOk) :
    ∃ r : Word, runPorts { s with cmd := 0x11#32, a := 0#64, b := w } =
        .next { s with cmd := 0x11#32, a := 0#64, b := w, result := r, status := 0x00#8 } ∧
      r.toInt = clamp64 (-w.toInt) ∧ (w = 0x8000000000000000#64 → r = 0x7FFFFFFFFFFFFFFF#64) := by
  have hrun := (runPorts_command (decode_sub 0#64 w) s).trans (exec_sub_of_clear 0 w.toInt h)
  refine ⟨_, hrun, ?_, ?_⟩
  · rw [toInt_resultQ_sat64, zero_sub]
  · rintro rfl
    rfl

/-- SQR is MUL of an operand with itself: a saturating square. -/
theorem runPorts_sqr (w : Word) {s : State} (h : s.fault = codeOk) :
    ∃ r : Word, runPorts { s with cmd := 0x12#32, a := w, b := w } =
        .next { s with cmd := 0x12#32, a := w, b := w, result := r, status := 0x00#8 } ∧
      r.toInt = clamp64 (w.toInt * w.toInt / 4294967296) ∧ 0 ≤ r.toInt := by
  have hsq : 0 ≤ w.toInt * w.toInt / 4294967296 := Int.ediv_nonneg (mul_self_nonneg _) (by decide)
  have hr := toInt_resultQ_sat64 (w.toInt * w.toInt / 4294967296)
  have hrun := (runPorts_command (decode_mul w w) s).trans (exec_mul_of_clear w.toInt w.toInt h)
  exact ⟨_, hrun, hr, hr ▸ clamp64_nonneg hsq⟩

/-- Settles O58: the expansions and triples by evaluation, the effects from the meanings of the four commands. -/
theorem pseudoInstructionsExpand : Obligations.PseudoInstructionsExpand := by
  refine ⟨fun x => ⟨rfl, rfl, fun hlo hhi => ?_⟩, rfl, rfl, rfl,
    fun w s h => ⟨runPorts_neg w h, runPorts_sqr w h⟩, fun s => ⟨?_, ?_, ?_⟩⟩
  · have hx : operandFits .q (asmValue x) = true := fits64_iff.mpr ⟨hlo, hhi⟩
    exact ⟨assembleCommand_two (op := 0x11#8) rfl rfl hx, assembleCommand_two (op := 0x12#8) rfl hx hx⟩
  · have hd : decode ⟨0x03#32, 56#64, 0#64⟩ = .ok (.rdprng 56) := rfl
    exact (runPorts_command hd s).trans (exec_rdprng_ok (readElement_inext _))
  · have hd : decode ⟨0x03#32, 57#64, 0#64⟩ = .ok (.rdprng 57) := rfl
    exact (runPorts_command hd s).trans (exec_rdprng_ok (readElement_inextp _))
  · have hd : decode ⟨0x04#32, 58#64, 0#64⟩ = .ok (.wrprng 58 0) := rfl
    exact (runPorts_command hd s).trans (exec_wrprng_ok (writeElement_phase _ false))

end Sys2Proof.Machine
end

section
/-! Port words as integers: what the halves, the masks and the sign of a 64-bit word are in integer arithmetic
(`spec/40_fixed_point.md` rules R104, R105, R107). -/

namespace Sys2Proof.Machine

theorem word_toInt_range (w : Word) : -9223372036854775808 ≤ w.toInt ∧ w.toInt ≤ 9223372036854775807 :=
  fits64_iff.mp (fits64_toInt w)

/-- Every magnitude but that of MIN is in range (rule R107). -/
theorem abs_toInt_range {w : Word} (h : w.toInt ≠ -9223372036854775808) :
    -9223372036854775808 ≤ |w.toInt| ∧ |w.toInt| ≤ 9223372036854775807 := by
  have hw := word_toInt_range w
  exact ⟨(by decide : (-9223372036854775808 : Int) ≤ 0).trans (abs_nonneg _), abs_le.mpr (by omega)⟩

/-- The unsigned low half of a word is its fraction (rule R105). -/
theorem toNat_lowHalf (w : Word) : ((w.extractLsb' 0 32).toNat : Int) = w.toInt % 4294967296 := by
  rw [BitVec.extractLsb'_toNat, Nat.shiftRight_zero, BitVec.toInt_eq_toNat_cond]
  split_ifs <;> omega

/-- The signed high half of a word is its floor (rule R104). -/
theorem toInt_highHalf (w : Word) : (w.extractLsb' 32 32).toInt = w.toInt / 4294967296 := by
  have hw := w.isLt
  rw [BitVec.toInt_eq_toNat_cond, BitVec.extractLsb'_toNat, Nat.shiftRight_eq_div_pow, BitVec.toInt_eq_toNat_cond]
  split_ifs <;> omega

/-- Clearing the low half is two shifts: `(x >> 32) << 32` (rule R104). -/
theorem and_highMask (w : Word) : w &&& 0xFFFFFFFF00000000#64 = (w >>> 32) <<< 32 :=
  (BitVec.shiftLeft_ushiftRight (x := w) (n := 32)).symm

theorem toNat_and_highMask (w : Word) :
    (w &&& 0xFFFFFFFF00000000#64).toNat = w.toNat / 4294967296 * 4294967296 := by
  have hw := w.isLt
  rw [and_highMask, BitVec.toNat_shiftLeft, BitVec.toNat_ushiftRight, Nat.shiftRight_eq_div_pow, Nat.shiftLeft_eq]
  omega

theorem toInt_and_highMask (w : Word) : (w &&& 0xFFFFFFFF00000000#64).toInt = floorQ w.toInt := by
  have hw := w.isLt
  rw [BitVec.toInt_eq_toNat_cond, toNat_and_highMask, BitVec.toInt_eq_toNat_cond, floorQ, shr32]
  split_ifs <;> omega

/-- Bit 32 is the parity of the integer part (rule R105). -/
theorem getLsbD_32_iff (w : Word) : w.getLsbD 32 = true ↔ shr32 w.toInt % 2 = 1 := by
  rw [BitVec.getLsbD, Nat.testBit_eq_decide_div_mod_eq, decide_eq_true_iff, shr32, BitVec.toInt_eq_toNat_cond]
  split_ifs <;> omega

/-- The sign mask `x >> 63` is all ones for a negative word, else zero (rule R107). -/
theorem sshiftRight_63 (w : Word) : w.sshiftRight 63 = if w.toInt < 0 then BitVec.allOnes 64 else 0#64 := by
  have hw := word_toInt_range w
  apply BitVec.eq_of_toInt_eq
  rw [BitVec.toInt_sshiftRight, Int.shiftRight_eq_div_pow]
  split_ifs
  · rw [BitVec.toInt_allOnes]
    omega
  · rw [BitVec.toInt_zero]
    omega

/-- Two's-complement negation by the sign mask: subtract one, then flip every bit. -/
theorem add_allOnes_xor_allOnes (w : Word) : (w + BitVec.allOnes 64) ^^^ BitVec.allOnes 64 = -w := by
  rw [BitVec.xor_allOnes, ← BitVec.neg_one_eq_allOnes, BitVec.not_eq_neg_add]
  simp

end Sys2Proof.Machine
end

section
/-! The functions of the fixed-point unit by their cases (`spec/40_fixed_point.md` rules R102 to R108). -/

namespace Sys2Proof.Machine

/-! ## MUL -/

/-- The floored product over `2^32` is the sum of the four partial products of the halves (rule R102): every term but the
product of the low halves is a whole number of units of `2^-32`. -/
theorem mul_ediv_eq_partialProducts (a b : Int) :
    a * b / 4294967296 = a / 4294967296 * (b / 4294967296) * 4294967296 + a / 4294967296 * (b % 4294967296) +
      a % 4294967296 * (b / 4294967296) + a % 4294967296 * (b % 4294967296) / 4294967296 := by
  have ha := Int.mul_ediv_add_emod a 4294967296
  have hb := Int.mul_ediv_add_emod b 4294967296
  generalize a / 4294967296 = ah, a % 4294967296 = al at *
  generalize b / 4294967296 = bh, b % 4294967296 = bl at *
  have hprod : a * b = al * bl + (ah * bh * 4294967296 + ah * bl + al * bh) * 4294967296 := by
    rw [← ha, ← hb]
    ring
  rw [hprod, Int.add_mul_ediv_right _ _ (by decide), add_comm]

/-- Where the product fits, MUL needs no clamp (rule R108). -/
theorem mulQ_eq_mul128 {a b : Int}
    (h : -9223372036854775808 ≤ mul128 a b ∧ mul128 a b ≤ 9223372036854775807) : mulQ a b = mul128 a b :=
  sat64_of_fits h

/-! ## DIV: a rounded magnitude, with the signs of the dividend and of the divisor -/

theorem absInt_eq_abs (v : Int) : absInt v = |v| := by
  rw [absInt]
  split_ifs with hv
  · exact (abs_of_neg hv).symm
  · exact (abs_of_nonneg (not_lt.mp hv)).symm

/-- The magnitude `m` with the sign of `v`. -/
def withSign (v m : Int) : Int := if v < 0 then -m else m

theorem withSign_abs_mul (v c : Int) : withSign v (|v| * c) = v * c := by
  unfold withSign
  split_ifs with hv
  · rw [abs_of_neg hv, neg_mul, neg_neg]
  · rw [abs_of_nonneg (not_lt.mp hv)]

theorem withSign_mul (v m c : Int) : withSign v m * c = withSign v (m * c) := by
  unfold withSign
  split_ifs
  · exact neg_mul m c
  · rfl

theorem withSign_mul_self (v m : Int) : withSign v m * v = m * |v| := by
  unfold withSign
  split_ifs with hv
  · rw [abs_of_neg hv, neg_mul_comm]
  · rw [abs_of_nonneg (not_lt.mp hv)]

theorem abs_withSign (v m : Int) : |withSign v m| = |m| := by
  unfold withSign
  split_ifs
  · exact abs_neg m
  · rfl

theorem withSign_sub (v m n : Int) : withSign v m - withSign v n = withSign v (m - n) := by
  unfold withSign
  split_ifs
  · ring
  · rfl

theorem withSign_tdiv (v m c : Int) : (withSign v m).tdiv c = withSign v (m.tdiv c) := by
  unfold withSign
  split_ifs
  · exact Int.neg_tdiv m c
  · rfl

theorem tdiv_eq_withSign {n : Int} (hn : 0 ≤ n) (v : Int) : n.tdiv v = withSign v (n / |v|) := by
  rw [← Int.tdiv_eq_ediv_of_nonneg hn]
  unfold withSign
  split_ifs with hv
  · rw [abs_of_neg hv, Int.tdiv_neg, neg_neg]
  · rw [abs_of_nonneg (not_lt.mp hv)]

/-- Two signs cancel, and one alone negates. -/
theorem withSign_withSign (a b m : Int) :
    withSign a (withSign b m) = if (a < 0) ≠ (b < 0) then -m else m := by
  unfold withSign
  by_cases hb : b < 0
  · simp only [hb, if_true, neg_neg, ne_eq, eq_iff_iff, iff_true, ite_not]
  · simp only [hb, if_false, ne_eq, eq_iff_iff, iff_false, not_not]

/-- DIV by a nonzero divisor: the clamp of the rounded magnitude with the two signs (rule R103). -/
theorem divQ_of_ne_zero (mode : Config.DivRound) (a : Int) {b : Int} (hb : b ≠ 0) :
    divQ mode a b = .ok (sat64 (withSign a (withSign b (quotMagnitude mode (|a| * 4294967296) |b|)))) := by
  simp only [divQ, if_neg hb, absInt_eq_abs, withSign_withSign]

/-- The magnitude under HALF_AWAY is nearest to `n / d`, and the larger of two. -/
theorem quotMagnitude_halfAway_nearest (n : Int) {d : Int} (hd : 0 < d) :
    2 * |n - quotMagnitude .halfAway n d * d| ≤ d ∧
      (2 * |n - quotMagnitude .halfAway n d * d| = d → n < quotMagnitude .halfAway n d * d) := by
  have hlow := Int.ediv_mul_le (2 * n + d) (b := 2 * d) (by omega)
  have hhigh := Int.lt_ediv_add_one_mul_self (2 * n + d) (b := 2 * d) (by omega)
  rw [mul_left_comm] at hlow
  rw [add_one_mul, mul_left_comm] at hhigh
  rw [quotMagnitude]
  generalize (2 * n + d) / (2 * d) * d = p at *
  grind

/-- The signed quotient is nearest to `a·2^32 / b`, and the one of larger magnitude of two: both signs drop out of the
error and leave the claim of the magnitudes. -/
theorem signedQuotient_nearest (a : Int) {b q : Int} (hb : b ≠ 0)
    (hq : q = withSign a (withSign b (quotMagnitude .halfAway (|a| * 4294967296) |b|))) :
    2 * |a * 4294967296 - q * b| ≤ |b| ∧
      (2 * |a * 4294967296 - q * b| = |b| → |a * 4294967296| < |q * b|) := by
  subst hq
  rw [withSign_mul, withSign_mul_self, ← withSign_abs_mul a, withSign_sub, abs_withSign, abs_withSign, abs_withSign]
  obtain ⟨hnear, htie⟩ := quotMagnitude_halfAway_nearest (|a| * 4294967296) (abs_pos.mpr hb)
  refine ⟨hnear, fun h => ?_⟩
  calc |(|a| * 4294967296)| = |a| * 4294967296 := abs_of_nonneg (by positivity)
    _ < quotMagnitude .halfAway (|a| * 4294967296) |b| * |b| := htie h
    _ ≤ _ := le_abs_self _

/-- Under TRUNC the signed quotient is the one rounded toward zero (rule R103). -/
theorem divQ_trunc (a : Int) {b : Int} (hb : b ≠ 0) :
    divQ .trunc a b = .ok (sat64 ((a * 4294967296).tdiv b)) := by
  rw [divQ_of_ne_zero _ _ hb, ← withSign_abs_mul a, withSign_tdiv, tdiv_eq_withSign (by positivity), quotMagnitude]

/-! ## FLOOR, ROUND, SIGN and ABS -/

theorem floorQ_range {x : Int} (h : -9223372036854775808 ≤ x ∧ x ≤ 9223372036854775807) :
    -9223372036854775808 ≤ floorQ x ∧ floorQ x ≤ 9223372036854775807 := by
  simp only [floorQ, shr32]
  omega

theorem shr32_floorQ (x : Int) : shr32 (floorQ x) = shr32 x :=
  Int.mul_ediv_cancel _ (by decide)

theorem roundQ_below_half {x : Int} (h : fracQ x < 2147483648) : roundQ x = floorQ x :=
  if_pos h

theorem roundQ_above_half {x : Int} (h : 2147483648 < fracQ x) : roundQ x = sat64 (floorQ x + 4294967296) := by
  rw [roundQ, if_neg h.le.not_gt, if_pos h]
  rfl

theorem roundQ_half_even {x : Int} (h : fracQ x = 2147483648) (heven : shr32 x % 2 ≠ 1) : roundQ x = floorQ x := by
  rw [roundQ, if_neg h.not_lt, if_neg h.not_gt, shr32_floorQ, if_pos (by omega)]

theorem roundQ_half_odd {x : Int} (h : fracQ x = 2147483648) (hodd : shr32 x % 2 = 1) :
    roundQ x = sat64 (floorQ x + 4294967296) := by
  rw [roundQ, if_neg h.not_lt, if_neg h.not_gt, shr32_floorQ, if_neg (by omega)]
  rfl

theorem signQ_eq_sign (x : Int) : signQ x = x.sign := by
  rcases lt_trichotomy x 0 with hx | rfl | hx
  · rw [signQ, if_pos hx, Int.sign_eq_neg_one_of_neg hx]
  · rfl
  · rw [signQ, if_neg hx.not_gt, if_pos hx, Int.sign_eq_one_of_pos hx]

theorem absQ_of_ne_min {x : Int} (h : x ≠ -9223372036854775808) : absQ x = |x| :=
  (if_neg h).trans (absInt_eq_abs x)

end Sys2Proof.Machine
end

section
/-! The fixed-point commands (`spec/40_fixed_point.md` rules R100 to R108): the RESULT word of each, its meaning while
FAULT is clear, and the statements of the family. -/

namespace Sys2Proof.Machine

open Sys2Proof.Claims

/-! ## The RESULT words -/

/-- FLOOR's result is the masked operand (rule R104). -/
theorem resultQ_floorQ (w : Word) : resultQ (floorQ w.toInt) = w &&& 0xFFFFFFFF00000000#64 :=
  BitVec.eq_of_toInt_eq
    ((toInt_ofInt64 (floorQ_range (word_toInt_range w))).trans (toInt_and_highMask w).symm)

/-- The source's branchless magnitude (rule R107). -/
theorem resultQ_abs (w : Word) : resultQ |w.toInt| = (w + w.sshiftRight 63) ^^^ w.sshiftRight 63 := by
  rw [sshiftRight_63]
  split_ifs with hneg
  · rw [add_allOnes_xor_allOnes, abs_of_neg hneg, resultQ, BitVec.ofInt_neg, BitVec.ofInt_toInt]
  · rw [abs_of_nonneg (not_lt.mp hneg), resultQ, BitVec.ofInt_toInt]
    simp

/-! ## The meanings while FAULT is clear -/

theorem exec_add_of_clear (a b : Int) {s : State} (h : s.fault = codeOk) :
    exec (.add a b) s = .next (s.complete (resultQ (sat64 (a + b)))) :=
  computeValue_ok _ h

/-- The first fault goes into FAULT (rule R303). -/
theorem raise_of_clear {s : State} (c : FaultCode) (h : s.fault = codeOk) :
    s.raise c = { s with status := c.code, fault := c.code } := by
  rw [State.raise, if_pos h]

theorem exec_div_of_zero (a : Int) {s : State} (h : s.fault = codeOk) :
    exec (.div a 0) s = .next { s with status := 0x02#8, fault := 0x02#8 } :=
  (computeValue_error .divByZero h).trans (congrArg Host.Outcome.next (raise_of_clear .divByZero h))

theorem exec_div_ok {a b q : Int} {s : State} (h : s.fault = codeOk) (hq : divQ .halfAway a b = .ok q) :
    exec (.div a b) s = .next (s.complete (resultQ q)) :=
  (congrArg (computeValue s) (congrArg (Except.map resultQ) hq)).trans (computeValue_ok _ h)

theorem exec_floor_of_clear (x : Int) {s : State} (h : s.fault = codeOk) :
    exec (.floor x) s = .next (s.complete (resultQ (floorQ x))) :=
  computeValue_ok _ h

theorem exec_round_of_clear (x : Int) {s : State} (h : s.fault = codeOk) :
    exec (.round x) s = .next (s.complete (resultQ (roundQ x))) :=
  computeValue_ok _ h

theorem exec_sign_of_clear (x : Int) {s : State} (h : s.fault = codeOk) :
    exec (.sign x) s = .next (s.complete (resultInt (signQ x))) :=
  computeValue_ok _ h

theorem exec_abs_of_clear (x : Int) {s : State} (h : s.fault = codeOk) :
    exec (.abs x) s = .next (s.complete (resultQ (absQ x))) :=
  computeValue_ok _ h

/-! ## The statements -/

/-- Settles O24: the clamped sum is in range, so RESULT reads back as it. -/
theorem addSaturates : Obligations.AddSaturates :=
  fun a b _ h => ⟨decode_setWidth 0x10#8 a b, _, exec_add_of_clear _ _ h, toInt_resultQ_sat64 _⟩

/-- Settles O25: as for ADD. -/
theorem subSaturates : Obligations.SubSaturates :=
  fun a b _ h => ⟨decode_sub a b, _, exec_sub_of_clear _ _ h, toInt_resultQ_sat64 _⟩

/-- Settles O26: the halves of a word are its quotient and remainder by `2^32`. -/
theorem mulIsTheClampedSumOfPartialProducts : Obligations.MulIsTheClampedSumOfPartialProducts := by
  intro a b s h
  have hsum := mul_ediv_eq_partialProducts a.toInt b.toInt
  rw [← toInt_highHalf, ← toInt_highHalf, ← toNat_lowHalf, ← toNat_lowHalf] at hsum
  exact ⟨decode_mul a b, _, _, _, _, _, rfl, rfl, rfl, rfl, hsum, exec_mul_of_clear _ _ h, toInt_resultQ_sat64 _⟩

/-- Settles O27: the signs drop out of the rounding error, which is that of the magnitudes. -/
theorem divRoundsHalfAwayAndFaultsOnZero : Obligations.DivRoundsHalfAwayAndFaultsOnZero := by
  refine fun a b s h => ⟨decode_setWidth 0x13#8 a b, fun hzero => ?_, fun hb => ?_, fun hb => ?_⟩
  · rw [hzero]
    exact exec_div_of_zero _ h
  · exact ⟨_, _, exec_div_ok h (divQ_of_ne_zero _ _ hb), toInt_resultQ_sat64 _, signedQuotient_nearest _ hb rfl⟩
  · rw [divQ_trunc _ hb, sat64_eq_clamp, clamp64]

/-- Settles O28: the mask is the floor, which is in range. -/
theorem floorMasksTheFraction : Obligations.FloorMasksTheFraction :=
  fun a b _ h => ⟨decode_setWidth 0x14#8 a b, _, exec_floor_of_clear _ h, resultQ_floorQ a,
    (congrArg BitVec.toInt (resultQ_floorQ a)).trans (toInt_and_highMask a)⟩

/-- Settles O29: one case of ROUND for each clause. -/
theorem roundBreaksTiesToEven : Obligations.RoundBreaksTiesToEven := by
  intro a b s h
  have hfrac : ((a.extractLsb' 0 32).toNat : Int) = fracQ a.toInt := toNat_lowHalf a
  have hodd : (a &&& 0xFFFFFFFF00000000#64).getLsbD 32 = true ↔ shr32 a.toInt % 2 = 1 := by
    rw [getLsbD_32_iff, toInt_and_highMask, shr32_floorQ]
  have hdown (hr : roundQ a.toInt = floorQ a.toInt) :
      resultQ (roundQ a.toInt) = a &&& 0xFFFFFFFF00000000#64 := by
    rw [hr, resultQ_floorQ]
  have hup (hr : roundQ a.toInt = sat64 (floorQ a.toInt + 4294967296)) :
      (resultQ (roundQ a.toInt)).toInt = clamp64 ((a &&& 0xFFFFFFFF00000000#64).toInt + 4294967296) := by
    rw [hr, toInt_resultQ_sat64, toInt_and_highMask]
  refine ⟨decode_setWidth 0x15#8 a b, _, _, _, rfl, rfl, exec_round_of_clear _ h,
    fun hf => hdown (roundQ_below_half ?_), fun hf => hup (roundQ_above_half ?_),
    fun hf hbit => hdown (roundQ_half_even ?_ ?_), fun hf hbit => hup (roundQ_half_odd ?_ ?_)⟩
  · omega
  · omega
  · omega
  · exact fun hpar => Bool.false_ne_true (hbit.symm.trans (hodd.mpr hpar))
  · omega
  · exact hodd.mp hbit

/-- Settles O31: only MIN, whose magnitude is out of range, saturates. -/
theorem absSaturatesAtMin : Obligations.AbsSaturatesAtMin := by
  refine fun a b s h => ⟨decode_setWidth 0x17#8 a b, _, exec_abs_of_clear _ h, fun hmin => ?_, fun hmin => ?_⟩
  · subst hmin
    rfl
  · have hne : a.toInt ≠ -9223372036854775808 := fun heq => hmin (BitVec.eq_of_toInt_eq heq)
    rw [absQ_of_ne_min hne]
    exact ⟨toInt_ofInt64 (abs_toInt_range hne), resultQ_abs a⟩

/-- Settles O30: RESULT holds the integer, not a Q31.32 value. -/
theorem signIsAnInteger : Obligations.SignIsAnInteger := by
  refine fun a b s h => ⟨decode_setWidth 0x16#8 a b, _, exec_sign_of_clear _ h, ?_⟩
  rw [signQ_eq_sign]
  rcases Int.sign_trichotomy a.toInt with hs | hs | hs <;> rw [hs] <;> rfl

/-- Settles O32: MUL128 is the floored product by definition, and the clamp leaves it alone in range. -/
theorem wideProductEqualsMulInRange : Obligations.WideProductEqualsMulInRange :=
  fun _ _ => ⟨rfl, fun hlo hhi => mulQ_eq_mul128 ⟨hlo, hhi⟩⟩

end Sys2Proof.Machine
end

section
/-! The sine ROM and LUT (`spec/41_sine_table.md` rules R140 to R142): the default table's sum and steps, the meaning of
LUT while FAULT is clear, and the statements of the family. -/

namespace Sys2Proof.Machine

/-! ## The default table -/

/-- Every table has passed the check of rule R142, so it has 256 entries. -/
theorem sineTable_length (t : Config.SineTable) : t.entries.length = 256 := by
  have hok := t.ok
  simp only [Config.sineTableOk, Bool.and_eq_true, beq_iff_eq] at hok
  obtain ⟨⟨hlen, -⟩, -⟩ := hok
  exact hlen

theorem sineRom_length : sineRom.length = 256 := sineTable_length defaultSineTable

/-- The checksum of rule R141. -/
theorem sineRom_sum : sineRom.sum = 699381859989 := by decide +kernel

/-- Inside the table the default value of the read does not matter. -/
theorem sineRom_getD_eq_romEntry {k : Nat} (h : k < 256) (d : Int) :
    sineRom.getD k d = romEntry params.sineTable k := by
  have hk : k < sineRom.length := by rwa [sineRom_length]
  exact (List.getD_eq_getElem _ _ hk).trans (List.getD_eq_getElem _ _ hk).symm

theorem romEntry_first : romEntry params.sineTable 0 = 0 := rfl

theorem romEntry_last : romEntry params.sineTable 255 = qOne := rfl

/-- The bounds of rule R142 on the steps of the default table. -/
theorem romEntry_step_range : ∀ i < 255,
    81487 ≤ romEntry params.sineTable (i + 1) - romEntry params.sineTable i ∧
      romEntry params.sineTable (i + 1) - romEntry params.sineTable i ≤ 26456769 := by
  decide +kernel

/-! ## LUT while FAULT is clear -/

theorem exec_lut_of_lt {k : Nat} {s : State} (h : s.fault = codeOk) (hk : k < 256) :
    exec (.lut k) s = .next (s.complete (resultQ (romEntry params.sineTable k))) := by
  have hread : tableRead params k = .ok (romEntry params.sineTable k) := tableRead_ok params (by omega)
  exact (congrArg (computeValue s) (congrArg (Except.map resultQ) hread)).trans (computeValue_ok _ h)

theorem exec_lut_of_outside {i : Int} {s : State} (h : s.fault = codeOk) (hi : i < 0 ∨ 255 < i) :
    exec (.lut i) s = .next { s with status := 0x06#8, fault := 0x06#8 } := by
  have hexec : exec (.lut i) s = .next (s.raise .lutIndex) :=
    (congrArg (computeValue s) (congrArg (Except.map resultQ) (tableRead_error params hi))).trans
      (computeValue_error .lutIndex h)
  rw [hexec, raise_of_clear .lutIndex h]
  rfl

/-! ## The statements -/

/-- Settles O33: LUT answers what the table read answers. -/
theorem lutReadsTheRom : Obligations.LutReadsTheRom := by
  refine fun a b s h => ⟨decode_setWidth 0x20#8 a b, fun k hk ha => ?_, exec_lut_of_outside h⟩
  rw [ha, sineRom_getD_eq_romEntry hk]
  exact exec_lut_of_lt h hk

/-- Settles O34: the entries' range is that of rule R142, and each step is bounded on its own. -/
theorem defaultSineTableHasItsProperties : Obligations.DefaultSineTableHasItsProperties := by
  refine ⟨sineRom_length, sineRom_sum, romEntry_first, romEntry_last, fun k hk => ?_⟩
  have hk' : k < 256 := by omega
  have hsucc : k + 1 < 256 := by omega
  simp only [sineRom_getD_eq_romEntry hk', sineRom_getD_eq_romEntry hsucc]
  obtain ⟨hnonneg, -⟩ := romEntry_range k hk'
  obtain ⟨-, hle⟩ := romEntry_range (k + 1) hsucc
  exact ⟨hnonneg, hle, romEntry_step_range k hk⟩

end Sys2Proof.Machine
end

section
/-! Commands whose function (`spec/42_trig.md`) answers a Q31.32 value or faults, while FAULT is clear; and the default
constants that SinCore and COS use. -/

namespace Sys2Proof.Machine

theorem computeValue_map_ok {r : Except FaultCode Int} {v : Int} {s : State} (h : s.fault = codeOk) (hr : r = .ok v) :
    computeValue s (r.map resultQ) = .next (s.complete (resultQ v)) := by
  subst hr
  exact computeValue_ok _ h

theorem computeValue_map_error {r : Except FaultCode Int} {c : FaultCode} {s : State} (h : s.fault = codeOk)
    (hr : r = .error c) :
    computeValue s (r.map resultQ) = .next { s with status := c.code, fault := c.code } := by
  subst hr
  exact (computeValue_error c h).trans (congrArg Host.Outcome.next (raise_of_clear c h))

/-! ## Default constants (rule R30) -/

theorem params_pi : params.pi = 13493037704 := rfl
theorem params_piOver2 : params.piOver2 = 6746518852 := rfl
theorem params_lutInterval : params.lutInterval = 697236581115 := rfl

end Sys2Proof.Machine
end

section
/-! SinCore, SIN and COS (`spec/42_trig.md` rules R150 to R153). -/

namespace Sys2Proof.Machine

open Sys2Proof.Claims

/-! ## The fold and the table position (rule R151, steps 1 and 2) -/

theorem halfTurnAngle_range (x : Int) : 0 ≤ halfTurnAngle params x ∧ halfTurnAngle params x < 13493037704 :=
  ⟨Int.emod_nonneg _ (by decide), Int.emod_lt_of_pos _ (by decide)⟩

theorem flipH_iff (x : Int) : flipH params x = true ↔ 6746518852 ≤ halfTurnAngle params x :=
  decide_eq_true_iff

theorem flipV_iff (x : Int) : flipV params x = true ↔ 13493037704 ≤ turnAngle params x :=
  decide_eq_true_iff

theorem reducedAngle_range (x : Int) : 0 ≤ reducedAngle params x ∧ reducedAngle params x < 6746518852 := by
  have hrp := halfTurnAngle_range x
  simp only [reducedAngle, flipH_iff, params_piOver2]
  split_ifs <;> omega

theorem tablePos_eq (x : Int) : tablePos params x = reducedAngle params x * 697236581115 / 4294967296 := by
  have hrq := reducedAngle_range x
  refine mulQ_eq_mul128 ?_
  rw [mul128, shr32, params_lutInterval]
  omega

/-- The largest reduced angle stays below position 255 (rule R150). -/
theorem tablePos_range (x : Int) : 0 ≤ tablePos params x ∧ tablePos params x < 255 * 4294967296 := by
  have hrq := reducedAngle_range x
  rw [tablePos_eq]
  omega

/-- Where the round-up step stays in range, ROUND is the nearest integer, ties to even, as a Q31.32 value. -/
theorem roundQ_eq_nearestEven {v : Int} (h : -9223372036854775808 ≤ v ∧ v < 9223372032559808512) :
    roundQ v = Claims.nearestEven v * 4294967296 := by
  have hup : sat64 (floorQ v + qOne) = floorQ v + qOne := by
    apply sat64_of_fits
    simp only [floorQ, shr32, qOne]
    omega
  simp only [roundQ, Claims.nearestEven, hup, shr32_floorQ]
  simp only [floorQ, fracQ, shr32, qOne]
  split_ifs <;> omega

theorem nearestEven_error (v : Int) :
    -2147483648 ≤ v - Claims.nearestEven v * 4294967296 ∧ v - Claims.nearestEven v * 4294967296 ≤ 2147483648 := by
  simp only [Claims.nearestEven]
  split_ifs <;> omega

theorem roundQ_tablePos (x : Int) :
    roundQ (tablePos params x) = Claims.nearestEven (tablePos params x) * 4294967296 := by
  have hpos := tablePos_range x
  exact roundQ_eq_nearestEven (by omega)

theorem posIndex_eq (x : Int) : posIndex params x = Claims.nearestEven (tablePos params x) := by
  rw [posIndex, roundQ_tablePos]
  exact Int.mul_ediv_cancel _ (by decide)

theorem posError_eq (x : Int) :
    posError params x = tablePos params x - Claims.nearestEven (tablePos params x) * 4294967296 := by
  rw [posError, roundQ_tablePos]

theorem posError_range (x : Int) : -2147483648 ≤ posError params x ∧ posError params x ≤ 2147483648 :=
  posError_eq x ▸ nearestEven_error _

/-! ## The two table indices -/

/-- The adjacent index stays in the table: at index 0 the error is not negative, at 255 it is. -/
theorem posIndex_range (x : Int) :
    (0 ≤ posIndex params x ∧ posIndex params x ≤ 255) ∧
      0 ≤ posIndex params x + signQ (posError params x) ∧ posIndex params x + signQ (posError params x) ≤ 255 := by
  have hpos := tablePos_range x
  have herr := nearestEven_error (tablePos params x)
  rw [posIndex_eq, posError_eq, signQ]
  split_ifs <;> omega

theorem nearestIndex_range (x : Int) : 0 ≤ nearestIndex params x ∧ nearestIndex params x ≤ 255 := by
  obtain ⟨hk, -⟩ := posIndex_range x
  rw [nearestIndex]
  split_ifs <;> omega

theorem adjacentIndex_range (x : Int) : 0 ≤ adjacentIndex params x ∧ adjacentIndex params x ≤ 255 := by
  obtain ⟨-, hm⟩ := posIndex_range x
  rw [adjacentIndex]
  split_ifs <;> omega

/-! ## The interpolation (rule R151, steps 3 and 4) -/

/-- The entry of the block's own table at an index in the table. -/
def entryAt (i : Int) : Int := romEntry params.sineTable i.toNat

theorem entryAt_range {i : Int} (h : 0 ≤ i ∧ i ≤ 255) : 0 ≤ entryAt i ∧ entryAt i ≤ 4294967296 :=
  romEntry_range i.toNat (by omega)

/-- The correction of the nearest entry toward the adjacent one, without any clamp. -/
def correction (err near adj : Int) : Int := err * |near - adj| / 4294967296

section

variable {err near adj : Int} (he : -2147483648 ≤ err ∧ err ≤ 2147483648)
  (hn : 0 ≤ near ∧ near ≤ 4294967296) (ha : 0 ≤ adj ∧ adj ≤ 4294967296)

include he hn ha

/-- Half a table step times a distance of at most ONE is at most half of ONE (rule R151). -/
theorem correction_range : -2147483648 ≤ correction err near adj ∧ correction err near adj ≤ 2147483648 := by
  have hdist : |near - adj| ≤ 4294967296 := abs_le.mpr (by omega)
  have hprod : |(err * |near - adj|)| ≤ 2147483648 * 4294967296 := by
    rw [abs_mul, abs_abs]
    exact mul_le_mul (abs_le.mpr he) hdist (abs_nonneg _) (by decide)
  obtain ⟨hlo, hhi⟩ := abs_le.mp hprod
  rw [correction]
  omega

/-- No step of the correction saturates. -/
theorem mulQ_absQ_subQ : mulQ err (absQ (subQ near adj)) = correction err near adj := by
  have hrange := correction_range he hn ha
  have hsub : subQ near adj = near - adj := sat64_of_fits (by omega)
  have habs : absQ (near - adj) = |near - adj| := absQ_of_ne_min (by omega)
  have hfits : -9223372036854775808 ≤ correction err near adj ∧ correction err near adj ≤ 9223372036854775807 := by
    omega
  rw [hsub, habs]
  exact mulQ_eq_mul128 hfits

end

/-- SinCore with the default parameters reads two entries and interpolates between them. -/
theorem sinCore_eq (x : Int) :
    sinCore params x =
      .ok (interpolate params x (entryAt (nearestIndex params x)) (entryAt (adjacentIndex params x))) := by
  rw [sinCore, tableRead_ok params (nearestIndex_range x), tableRead_ok params (adjacentIndex_range x)]
  rfl

section

variable (x : Int) {near adj : Int} (hn : 0 ≤ near ∧ near ≤ 4294967296) (ha : 0 ≤ adj ∧ adj ≤ 4294967296)

include hn ha

theorem interpolate_eq :
    interpolate params x near adj =
      (let v := if flipH params x then near - correction (posError params x) near adj
        else near + correction (posError params x) near adj
       if flipV params x then -v else v) := by
  rw [interpolate, mulQ_absQ_subQ (posError_range x) hn ha]

/-- The value is an entry corrected by at most half of ONE, up to its sign (rule R151). -/
theorem interpolate_range :
    -6442450944 ≤ interpolate params x near adj ∧ interpolate params x near adj ≤ 6442450944 := by
  have hcorr := correction_range (posError_range x) hn ha
  simp only [interpolate_eq x hn ha]
  split_ifs <;> omega

end

/-- The specification's two indices and value are the model's. -/
theorem sinSpec_eq (x : Int) :
    sinSpec x = (nearestIndex params x, adjacentIndex params x,
      interpolate params x (entryAt (nearestIndex params x)) (entryAt (adjacentIndex params x))) := by
  rw [interpolate_eq x (entryAt_range (nearestIndex_range x)) (entryAt_range (adjacentIndex_range x))]
  simp only [correction, flipV_iff]
  simp only [nearestIndex, adjacentIndex, posIndex_eq, posError_eq, tablePos_eq, signQ_eq_sign]
  rfl

theorem sinSpec_value_range (x : Int) : -6442450944 ≤ (sinSpec x).2.2 ∧ (sinSpec x).2.2 ≤ 6442450944 := by
  rw [sinSpec_eq]
  exact interpolate_range x (entryAt_range (nearestIndex_range x)) (entryAt_range (adjacentIndex_range x))

theorem sinCore_eq_sinSpec (x : Int) : sinCore params x = .ok (sinSpec x).2.2 := by
  rw [sinCore_eq, sinSpec_eq]

/-- The angle enters only through its residue modulo TWO_PI. -/
theorem sinCore_congr {p : Config.Params} {x y : Int} (h : turnAngle p x = turnAngle p y) :
    sinCore p x = sinCore p y := by
  have hhalf : halfTurnAngle p x = halfTurnAngle p y := congrArg (· % p.pi) h
  have hflipV : flipV p x = flipV p y := congrArg (fun r => decide (r ≥ p.pi)) h
  have hflipH : flipH p x = flipH p y := congrArg (fun r => decide (r ≥ p.piOver2)) hhalf
  simp only [sinCore, interpolate, adjacentIndex, nearestIndex, posError, posIndex, tablePos, reducedAngle, hhalf,
    hflipV, hflipH]

theorem turnAngle_add_twoPi (p : Config.Params) (x : Int) : turnAngle p (x + p.twoPi) = turnAngle p x :=
  Int.add_emod_right x p.twoPi

/-- A table position past the end: twice LUT_INTERVAL takes a right angle to index 510. -/
def wideInterval : Config.Params := { params with lutInterval := 2 * params.lutInterval }

/-! ## SIN and COS while FAULT is clear -/

theorem toInt_resultQ_sinSpec (x : Int) : (resultQ (sinSpec x).2.2).toInt = (sinSpec x).2.2 := by
  have hv := sinSpec_value_range x
  exact toInt_ofInt64 (by omega)

theorem exec_sin_of_clear (x : Int) {s : State} (h : s.fault = codeOk) :
    exec (.sin x) s = .next (s.complete (resultQ (sinSpec x).2.2)) :=
  computeValue_map_ok h (sinCore_eq_sinSpec x)

theorem exec_cos_of_clear (x : Int) {s : State} (h : s.fault = codeOk) :
    exec (.cos x) s = .next (s.complete (resultQ (sinSpec (cosAngle params x)).2.2)) :=
  computeValue_map_ok h (sinCore_eq_sinSpec (cosAngle params x))

theorem exec_sin_add_twoPi (x : Int) (s : State) : exec (.sin (x + 26986075409)) s = exec (.sin x) s :=
  congrArg (fun r : Except FaultCode Int => computeValue s (r.map resultQ))
    (sinCore_congr (turnAngle_add_twoPi params x))

/-- The phase shift cannot leave 64 bits: it moves a positive angle down and any other up (rule R153). -/
theorem cosAngle_range {x : Int} (h : -9223372036854775808 ≤ x ∧ x ≤ 9223372036854775807) :
    -9223372036854775808 ≤ cosAngle params x ∧ cosAngle params x ≤ 9223372036854775807 := by
  simp only [cosAngle, threePiOver2, params_pi, params_piOver2]
  split_ifs <;> omega

/-! ## The statements -/

/-- Settles O35: the check is TableRead's own; under the defaults both indices lie in the table. -/
theorem tableReadFaultsOnlyOutsideTheTable : Obligations.TableReadFaultsOnlyOutsideTheTable :=
  ⟨fun p _ => ⟨tableRead_error p, fun hlo hhi => tableRead_ok p ⟨hlo, hhi⟩⟩, fun x => ⟨_, sinCore_eq_sinSpec x⟩,
    wideInterval, 6746518851, rfl⟩

/-- Settles O36: no step of SinCore clamps, so it computes on unbounded integers. -/
theorem sinCoreInterpolatesWithoutSaturating : Obligations.SinCoreInterpolatesWithoutSaturating := by
  intro x
  have hvalue : |(sinSpec x).2.2| ≤ 6442450944 := abs_le.mpr (sinSpec_value_range x)
  obtain ⟨hnlo, hnhi⟩ := nearestIndex_range x
  obtain ⟨hmlo, hmhi⟩ := adjacentIndex_range x
  have hindices := sinSpec_eq x
  refine ⟨sinCore_eq_sinSpec x, ?_, ?_, ?_, ?_, by omega⟩ <;> rwa [hindices]

/-- Settles O37: SinCore's value fits RESULT, and TWO_PI drops out of the residue. -/
theorem sinTakesEveryAngle : Obligations.SinTakesEveryAngle := by
  refine fun a b s h => ⟨decode_setWidth 0x21#8 a b, _, exec_sin_of_clear _ h, ?_, exec_sin_add_twoPi _ s⟩
  rw [toInt_resultQ_sinSpec, sinCore_eq_sinSpec]

/-- Settles O39: COS is SIN of an angle in range. -/
theorem cosShiftsThePhase : Obligations.CosShiftsThePhase := by
  intro a b s h
  obtain ⟨hlo, hhi⟩ := cosAngle_range (word_toInt_range a)
  refine ⟨decode_setWidth 0x22#8 a b, _, cosAngle params a.toInt, rfl, hlo, hhi, exec_cos_of_clear _ h, ?_⟩
  rw [toInt_resultQ_sinSpec, sinCore_eq_sinSpec]

/-- Settles O38, by evaluation at each angle. -/
theorem quadrantAnglesAreExact : Obligations.QuadrantAnglesAreExact := by
  unfold Obligations.QuadrantAnglesAreExact
  decide +kernel

end Sys2Proof.Machine
end

section
/-! SQRT (`spec/42_trig.md` rule R160): the digit steps compute the floor of the root, and the correction by the remainder
makes it the nearest integer. -/

namespace Sys2Proof.Machine

/-- From a root whose square is at most `n`, the digit steps of the weights below `2^k` reach the root of `n`, provided
it is less than `2^k` away. -/
theorem isqrtDigits_eq_sqrt (n k : Nat) {r : Nat} (hlo : r * r ≤ n) (hhi : n < (r + 2 ^ k) * (r + 2 ^ k)) :
    isqrtDigits n k r = n.sqrt := by
  induction k generalizing r with
  | zero => exact Nat.eq_sqrt.mpr ⟨hlo, hhi⟩
  | succ k ih =>
    rw [pow_succ, mul_two, ← add_assoc] at hhi
    rw [isqrtDigits]
    split_ifs with hdigit
    · exact ih hdigit hhi
    · exact ih hlo (not_le.mp hdigit)

theorem isqrt_eq_sqrt {n : Nat} (h : n < 2 ^ 96) : isqrt n = n.sqrt :=
  isqrtDigits_eq_sqrt n 48 (Nat.zero_le n) (by omega)

/-- The root rounded to nearest: one more than the floor where the remainder exceeds it. -/
def nearestRoot (n : Nat) : Nat := if n - n.sqrt * n.sqrt > n.sqrt then n.sqrt + 1 else n.sqrt

/-- The remainder decides on which side of `(√n + 1/2)^2` the operand lies. -/
theorem nearestRoot_bounds (n : Nat) :
    (nearestRoot n = 0 ∨ (2 * (nearestRoot n : Int) - 1) * (2 * nearestRoot n - 1) < 4 * n) ∧
      (4 * n : Int) < (2 * nearestRoot n + 1) * (2 * nearestRoot n + 1) := by
  have hlo := n.sqrt_le
  have hhi := n.lt_succ_sqrt
  rw [nearestRoot]
  generalize n.sqrt = r at *
  split_ifs with hrem
  · have hmid : r * r + r < n := by omega
    zify at *
    exact ⟨.inr (by linarith), by linarith⟩
  · have hmid : n ≤ r * r + r := by omega
    zify at *
    refine ⟨or_iff_not_imp_left.mpr fun hr => ?_, by linarith⟩
    have hpos : 1 ≤ (r : Int) := by omega
    linarith

theorem sqrtQ_of_neg {x : Int} (h : x < 0) : sqrtQ x = .error .sqrtNegative :=
  if_pos h

theorem sqrtQ_of_nonneg {x : Int} (h : 0 ≤ x ∧ x ≤ 9223372036854775807) :
    sqrtQ x = .ok (nearestRoot (x * 4294967296).toNat : Nat) := by
  have hneg : ¬ x < 0 := by omega
  have hn : (x * 4294967296).toNat < 2 ^ 96 := by omega
  simp only [sqrtQ, if_neg hneg, isqrt_eq_sqrt hn, nearestRoot]
  split_ifs <;> rfl

/-- The largest root is that of MAX, by monotony of the lower bound. -/
theorem nearestRoot_le {n : Nat} (h : n ≤ 9223372036854775807 * 4294967296) : nearestRoot n ≤ 0xB504F333F9DE := by
  obtain ⟨hlo, -⟩ := nearestRoot_bounds n
  by_contra hbig
  have hr : (0xB504F333F9DF : Int) ≤ nearestRoot n := by omega
  have hsq := hlo.resolve_left (by omega)
  nlinarith

/-! ## SQRT while FAULT is clear -/

theorem exec_sqrt_of_neg {x : Int} {s : State} (h : s.fault = codeOk) (hx : x < 0) :
    exec (.sqrt x) s = .next { s with status := 0x03#8, fault := 0x03#8 } :=
  computeValue_map_error h (sqrtQ_of_neg hx)

/-- Settles O40: RESULT is the rounded root, which determines and bounds it. -/
theorem sqrtIsCorrectlyRounded : Obligations.SqrtIsCorrectlyRounded := by
  refine fun a b s h => ⟨decode_setWidth 0x23#8 a b, exec_sqrt_of_neg h, fun ha => ?_⟩
  obtain ⟨-, hmax⟩ := word_toInt_range a
  have hle := nearestRoot_le (n := (a.toInt * 4294967296).toNat) (by omega)
  have hbounds := nearestRoot_bounds (a.toInt * 4294967296).toNat
  have hr : (resultQ (nearestRoot (a.toInt * 4294967296).toNat : Nat)).toInt =
      nearestRoot (a.toInt * 4294967296).toNat := toInt_ofInt64 (by omega)
  refine ⟨_, computeValue_map_ok h (sqrtQ_of_nonneg ⟨ha, hmax⟩), ?_⟩
  rw [hr]
  rw [Int.toNat_of_nonneg (by omega)] at hbounds
  exact ⟨by omega, by omega, by exact_mod_cast hbounds⟩

end Sys2Proof.Machine
end

section
/-! LOG2 and LN (`spec/42_trig.md` rules R170 and R171): the two normalisation loops count doublings and halvings, and the
squaring steps add the fraction's bits. -/

namespace Sys2Proof.Machine

open Sys2Proof.Claims

/-! ## Normalisation -/

theorem logDoublings_of_ge (fuel : Nat) {z : Int} (y : Int) (h : qOne ≤ z) : logDoublings fuel z y = (z, y) := by
  cases fuel with
  | zero => rfl
  | succ fuel => exact if_neg h.not_gt

theorem logHalvings_of_lt (fuel : Nat) {z : Int} (y : Int) (h : z < 2 * qOne) : logHalvings fuel z y = (z, y) := by
  cases fuel with
  | zero => rfl
  | succ fuel => exact if_neg h.not_ge

/-- A mantissa below ONE is doubled, exactly, into [ONE, 2·ONE). -/
theorem logDoublings_of_lt {fuel : Nat} {z : Int} (y : Int) (hfuel : qOne ≤ z * 2 ^ fuel) (hz : z < qOne) :
    ∃ k : Nat, 0 < k ∧ logDoublings fuel z y = (z * 2 ^ k, y - k * qOne) ∧
      qOne ≤ z * 2 ^ k ∧ z * 2 ^ k < 2 * qOne := by
  induction fuel generalizing z y with
  | zero => exact absurd hz (by simpa using hfuel)
  | succ fuel ih =>
    rw [logDoublings, if_pos hz, shl1]
    by_cases hdone : qOne ≤ z * 2
    · exact ⟨1, Nat.one_pos, by simp [logDoublings_of_ge fuel _ hdone], by omega, by omega⟩
    · obtain ⟨k, -, heq, hlo, hhi⟩ := ih (y - qOne) (by rwa [mul_assoc, ← pow_succ']) (not_le.mp hdone)
      rw [mul_assoc, ← pow_succ'] at heq hlo hhi
      exact ⟨k + 1, k.succ_pos, by rw [heq]; push_cast; ring_nf, hlo, hhi⟩

/-- A mantissa from ONE on is halved, dropping the low bits, into [ONE, 2·ONE). -/
theorem logHalvings_of_ge {fuel : Nat} {z : Int} (y : Int) (hfuel : z < 2 ^ fuel * (2 * qOne)) (hz : qOne ≤ z) :
    ∃ k : Nat, logHalvings fuel z y = (z / 2 ^ k, y + k * qOne) ∧
      qOne ≤ z / 2 ^ k ∧ z / 2 ^ k < 2 * qOne := by
  induction fuel generalizing z y with
  | zero => exact ⟨0, by simp [logHalvings], by simpa using hz, by simpa using hfuel⟩
  | succ fuel ih =>
    by_cases hdone : z < 2 * qOne
    · exact ⟨0, by simp [logHalvings_of_lt _ y hdone], by simpa using hz, by simpa using hdone⟩
    · rw [logHalvings, if_pos (not_lt.mp hdone), shr1]
      have hhalf : z / 2 < 2 ^ fuel * (2 * qOne) :=
        Int.ediv_lt_of_lt_mul (by decide) (by rwa [mul_right_comm, ← pow_succ])
      obtain ⟨k, heq, hlo, hhi⟩ := ih (y + qOne) hhalf (by omega)
      rw [Int.ediv_ediv_of_nonneg (by decide), ← pow_succ'] at heq hlo hhi
      exact ⟨k + 1, by rw [heq]; push_cast; ring_nf, hlo, hhi⟩

/-- What both loops make of a positive operand: a mantissa `z` in [ONE, 2·ONE) and the count `n` of halvings minus
doublings. -/
def Normalised (x z n : Int) : Prop :=
  (4294967296 ≤ z ∧ z < 8589934592) ∧
    (n < 0 → x < 4294967296 ∧ z = x * 2 ^ (-n).toNat) ∧
    (0 ≤ n → 4294967296 ≤ x ∧ z = x / 2 ^ n.toNat) ∧
    -32 ≤ n ∧ n ≤ 30

/-! ## The fraction -/

/-- The squaring steps add the fraction's bits; the next bit to come has half the weight of all that are left. -/
theorem logBits_eq (k : Nat) (z y : Int) : logBits k z y (shr1 (2 ^ k)) = y + log2Fraction k z := by
  induction k generalizing z y with
  | zero => exact (add_zero y).symm
  | succ k ih =>
    have hweight : shr1 (2 ^ (k + 1)) = 2 ^ k := by
      rw [pow_succ]
      exact Int.mul_ediv_cancel _ (by decide)
    rw [logBits, log2Fraction, hweight]
    simp only [mul128, shr32, qOne, ih]
    simp only [shr1]
    split_ifs <;> omega

theorem log2Fraction_range (k : Nat) (z : Int) : 0 ≤ log2Fraction k z ∧ log2Fraction k z < 2 ^ k := by
  induction k generalizing z with
  | zero => exact ⟨le_rfl, Int.one_pos⟩
  | succ k ih =>
    rw [pow_succ, log2Fraction]
    obtain ⟨hlo1, hhi1⟩ := ih (z * z / 4294967296 / 2)
    obtain ⟨hlo2, hhi2⟩ := ih (z * z / 4294967296)
    split_ifs <;> omega

/-! ## The functions -/

theorem normalised_range {x z n : Int} (h : Normalised x z n) :
    -137438953472 ≤ n * 4294967296 + log2Fraction 32 z ∧ n * 4294967296 + log2Fraction 32 z < 133143986176 := by
  obtain ⟨-, -, -, hlo, hhi⟩ := h
  obtain ⟨hflo, hfhi⟩ := log2Fraction_range 32 z
  omega

theorem log2Q_of_nonpos {x : Int} (h : x ≤ 0) : log2Q x = .error .logNonpositive :=
  if_pos h

/-- The halvings start where the doublings end, and the fraction's bits are added last. -/
theorem log2Q_of_loops {x z y z' y' : Int} (h : 0 < x) (hup : logDoublings 64 x 0 = (z, y))
    (hdown : logHalvings 64 z y = (z', y')) : log2Q x = .ok (y' + log2Fraction 32 z') := by
  have hbits : logBits log2Iter z' y' 2147483648 = y' + log2Fraction 32 z' := logBits_eq 32 z' y'
  simp only [log2Q, if_neg (not_le.mpr h), hup, hdown, hbits]

/-- At most 32 doublings bring a positive mantissa below 2·ONE (rule R344). -/
theorem normalised_doubled {x : Int} {k : Nat} (hpos : 0 < x) (hx : x < 4294967296) (hk : 0 < k)
    (hlo : 4294967296 ≤ x * 2 ^ k) (hhi : x * 2 ^ k < 8589934592) : Normalised x (x * 2 ^ k) (-k) := by
  have hk32 : k < 33 := by
    by_contra hbig
    have hpow : (2 : Int) ^ 33 ≤ 2 ^ k := pow_le_pow_right₀ (by decide) (not_lt.mp hbig)
    have hle : (2 : Int) ^ k ≤ x * 2 ^ k := le_mul_of_one_le_left (by positivity) hpos
    omega
  exact ⟨⟨hlo, hhi⟩, fun _ => ⟨hx, by simp⟩, by omega, by omega⟩

/-- At most 30 halvings leave a 64-bit mantissa at ONE or above (rule R344). -/
theorem normalised_halved {x : Int} {k : Nat} (hmax : x ≤ 9223372036854775807) (hx : 4294967296 ≤ x)
    (hlo : 4294967296 ≤ x / 2 ^ k) (hhi : x / 2 ^ k < 8589934592) : Normalised x (x / 2 ^ k) k := by
  have hk31 : k < 31 := by
    by_contra hbig
    have hpow : (2 : Int) ^ 31 ≤ 2 ^ k := pow_le_pow_right₀ (by decide) (not_lt.mp hbig)
    have hle : 4294967296 * 2 ^ k ≤ x := (Int.le_ediv_iff_mul_le (by positivity)).mp hlo
    omega
  exact ⟨⟨hlo, hhi⟩, by omega, fun _ => ⟨hx, by simp⟩, by omega⟩

/-- An operand below ONE is only doubled, any other only halved. -/
theorem log2Q_normalised {x : Int} (h : 0 < x ∧ x ≤ 9223372036854775807) :
    ∃ z n : Int, Normalised x z n ∧ log2Q x = .ok (n * 4294967296 + log2Fraction 32 z) := by
  obtain ⟨hpos, hmax⟩ := h
  by_cases hx : x < qOne
  · obtain ⟨k, hk, hup, hlo, hhi⟩ := logDoublings_of_lt (fuel := 64) 0 (by rw [qOne]; omega) hx
    refine ⟨_, _, normalised_doubled hpos hx hk hlo hhi, ?_⟩
    rw [log2Q_of_loops hpos hup (logHalvings_of_lt 64 _ hhi), zero_sub, ← neg_mul, qOne]
  · have hge : qOne ≤ x := not_lt.mp hx
    obtain ⟨k, hdown, hlo, hhi⟩ := logHalvings_of_ge (fuel := 64) 0 (by rw [qOne]; omega) hge
    refine ⟨_, _, normalised_halved hmax hge hlo hhi, ?_⟩
    rw [log2Q_of_loops hpos (logDoublings_of_ge 64 0 hge) hdown, zero_add, qOne]

theorem lnQ_of_nonpos {x : Int} (h : x ≤ 0) : lnQ params x = .error .logNonpositive := by
  rw [lnQ, log2Q_of_nonpos h]
  rfl

/-- LN's product fits, because LOG2's result is small and LN2 is below ONE (rule R171). -/
theorem lnQ_of_log2Q {x y : Int} (hy : -137438953472 ≤ y ∧ y < 133143986176) (h : log2Q x = .ok y) :
    lnQ params x = .ok (y * 2977044471 / 4294967296) := by
  have hmul : mulQ y 2977044471 = mul128 y 2977044471 := by
    refine mulQ_eq_mul128 ?_
    rw [mul128, shr32]
    omega
  rw [lnQ, h]
  exact congrArg Except.ok hmul

/-! ## LOG2 and LN while FAULT is clear -/

theorem exec_log2_of_nonpos {x : Int} {s : State} (h : s.fault = codeOk) (hx : x ≤ 0) :
    exec (.log2 x) s = .next { s with status := 0x04#8, fault := 0x04#8 } :=
  computeValue_map_error h (log2Q_of_nonpos hx)

theorem exec_ln_of_nonpos {x : Int} {s : State} (h : s.fault = codeOk) (hx : x ≤ 0) :
    exec (.ln x) s = .next { s with status := 0x04#8, fault := 0x04#8 } :=
  computeValue_map_error h (lnQ_of_nonpos hx)

theorem exec_log2_ok {x y : Int} {s : State} (h : s.fault = codeOk) (hy : log2Q x = .ok y) :
    exec (.log2 x) s = .next (s.complete (resultQ y)) :=
  computeValue_map_ok h hy

theorem exec_ln_ok {x y : Int} {s : State} (h : s.fault = codeOk) (hy : lnQ params x = .ok y) :
    exec (.ln x) s = .next (s.complete (resultQ y)) :=
  computeValue_map_ok h hy

/-- Settles O41: the mantissa and the count are those of the two loops. -/
theorem log2ExtractsBitsBySquaring : Obligations.Log2ExtractsBitsBySquaring := by
  refine fun a b s h => ⟨decode_setWidth 0x24#8 a b, exec_log2_of_nonpos h, fun ha => ?_⟩
  obtain ⟨-, hmax⟩ := word_toInt_range a
  obtain ⟨z, n, hnorm, hlog⟩ := log2Q_normalised ⟨ha, hmax⟩
  have hrange := normalised_range hnorm
  obtain ⟨⟨hzlo, hzhi⟩, hup, hdown, hnlo, hnhi⟩ := hnorm
  exact ⟨_, z, n, exec_log2_ok h hlog, hzlo, hzhi, hup, hdown, hnlo, hnhi, toInt_ofInt64 (by omega),
    log2Fraction_range 32 z⟩

/-- Settles O42: RESULT of LOG2 reads back as the factor of LN's product. -/
theorem lnScalesLog2 : Obligations.LnScalesLog2 := by
  refine fun a b s h => ⟨decode_setWidth 0x25#8 a b, exec_ln_of_nonpos h, fun ha => ?_⟩
  obtain ⟨-, hmax⟩ := word_toInt_range a
  obtain ⟨z, n, hnorm, hlog⟩ := log2Q_normalised ⟨ha, hmax⟩
  have hrange := normalised_range hnorm
  generalize n * 4294967296 + log2Fraction 32 z = y at hlog hrange
  have hy : (resultQ y).toInt = y := toInt_ofInt64 (by omega)
  refine ⟨_, _, exec_log2_ok h hlog, exec_ln_ok h (lnQ_of_log2Q hrange hlog), ?_⟩
  rw [hy]
  exact toInt_ofInt64 (by omega)

end Sys2Proof.Machine
end

section
/-! EXP (`spec/42_trig.md` rule R180): the series is the sum of its terms up to the first zero term or the 40th, and no
division in it is by zero. -/

namespace Sys2Proof.Machine

open Sys2Proof.Claims

/-! ## Division of magnitudes -/

/-- With no sign to restore, DIV is the rounded quotient. -/
theorem divQ_of_nonneg {n d : Int} (hn : 0 ≤ n) (hd : 0 < d) :
    divQ params.divRound n d = .ok (sat64 ((2 * (n * 4294967296) + d) / (2 * d))) := by
  rw [divQ_of_ne_zero _ _ hd.ne', withSign, if_neg hn.not_gt, withSign, if_neg hd.not_gt, abs_of_nonneg hn,
    abs_of_pos hd]
  rfl

/-- Dividing by the Q31.32 value of an integer divides by the integer: the scale cancels. -/
theorem divQ_fromInt {v n : Int} (hv : 0 ≤ v ∧ v ≤ 9223372036854775807) (hn : 0 < n) :
    divQ params.divRound v (fromInt n) = .ok ((2 * v + n) / (2 * n)) := by
  obtain ⟨hnonneg, hmax⟩ := hv
  have hscale : (2 * (v * 4294967296) + n * 4294967296) / (2 * (n * 4294967296)) = (2 * v + n) / (2 * n) := by
    rw [← mul_assoc, ← mul_assoc, ← add_mul]
    exact Int.mul_ediv_mul_of_pos_left _ _ (by decide)
  have hlt : (2 * v + n) / (2 * n) < 9223372036854775808 := Int.ediv_lt_of_lt_mul (by omega) (by omega)
  have hge : 0 ≤ (2 * v + n) / (2 * n) := Int.ediv_nonneg (by omega) (by omega)
  rw [divQ_of_nonneg hnonneg (by rw [fromInt]; omega), fromInt, hscale, sat64_of_fits (by omega)]

/-! ## The series -/

theorem clamp64_le (v : Int) : clamp64 v ≤ 9223372036854775807 := by
  simp only [clamp64]
  omega

theorem expTerm_nonneg {x : Int} (hx : 0 ≤ x) (n : Nat) : 0 ≤ expTerm x n := by
  induction n with
  | zero => exact (by decide : (0 : Int) ≤ 4294967296)
  | succ n ih =>
    have hprod := clamp64_nonneg (Int.ediv_nonneg (mul_nonneg ih hx) (by decide : (0 : Int) ≤ 4294967296))
    exact Int.ediv_nonneg (by omega) (by omega)

/-- One round of the loop computes the next term. -/
theorem divQ_mulQ_expTerm {x : Int} (hx : 0 ≤ x) (n : Nat) :
    divQ params.divRound (mulQ (expTerm x n) x) (fromInt (n + 1 : Nat)) = .ok (expTerm x (n + 1)) := by
  have hprod : 0 ≤ expTerm x n * x / 4294967296 :=
    Int.ediv_nonneg (mul_nonneg (expTerm_nonneg hx n) hx) (by decide)
  have hmul : mulQ (expTerm x n) x = clamp64 (expTerm x n * x / 4294967296) := sat64_eq_clamp _
  rw [hmul, divQ_fromInt ⟨clamp64_nonneg hprod, clamp64_le _⟩ (by omega), expTerm]
  push_cast
  rfl

/-- The sum starts at ONE and no term lowers it. -/
theorem expSum_range {x : Int} (hx : 0 ≤ x) (n : Nat) :
    4294967296 ≤ expSum x n ∧ expSum x n ≤ 9223372036854775807 := by
  induction n with
  | zero => exact (by decide : (4294967296 : Int) ≤ 4294967296 ∧ (4294967296 : Int) ≤ 9223372036854775807)
  | succ n ih =>
    have hterm := expTerm_nonneg hx (n + 1)
    simp only [expSum, clamp64]
    omega

/-- The series stops after `n` terms: none of them is zero, and the next is zero or is beyond the bound. -/
def StopsAfter (x : Int) (bound n : Nat) : Prop :=
  n ≤ bound ∧ (∀ k, 1 ≤ k → k ≤ n → expTerm x k ≠ 0) ∧ (n = bound ∨ expTerm x (n + 1) = 0)

/-- From the sum of the first `m` terms, all of them nonzero, the loop reaches the sum at which it stops. -/
theorem expSeries_eq {x : Int} (hx : 0 ≤ x) (fuel : Nat) {m : Nat} (hm : ∀ k, 1 ≤ k → k ≤ m → expTerm x k ≠ 0) :
    ∃ n, StopsAfter x (m + fuel) n ∧
      expSeries params x fuel (m + 1 : Nat) (expTerm x m) (expSum x m) = .ok (expSum x n) := by
  induction fuel generalizing m with
  | zero => exact ⟨m, ⟨le_rfl, hm, .inl rfl⟩, rfl⟩
  | succ fuel ih =>
    rw [expSeries, divQ_mulQ_expTerm hx]
    by_cases hzero : expTerm x (m + 1) = 0
    · exact ⟨m, ⟨by omega, hm, .inr hzero⟩, by simp [hzero, bind, Except.bind, pure, Except.pure]⟩
    · have hm' : ∀ k, 1 ≤ k → k ≤ m + 1 → expTerm x k ≠ 0 := fun k hk hle =>
        (Nat.le_succ_iff.mp hle).elim (hm k hk) fun heq => heq ▸ hzero
      obtain ⟨n, hstop, hsum⟩ := ih hm'
      have hadd : addQ (expSum x m) (expTerm x (m + 1)) = expSum x (m + 1) := sat64_eq_clamp _
      rw [add_right_comm] at hstop
      refine ⟨n, hstop, ?_⟩
      rw [← hsum, ← hadd]
      simp only [bind, Except.bind, if_neg hzero]
      push_cast
      rfl

/-- The loop as EXP enters it: the constant term ONE, and the bound EXP_MAX_ITER = 40 (rules R6 and R180). -/
theorem expSeries_params {x : Int} (hx : 0 ≤ x) :
    ∃ n, StopsAfter x 40 n ∧ expSeries params x params.expMaxIter 1 qOne qOne = .ok (expSum x n) :=
  expSeries_eq hx 40 (m := 0) (fun _ hk hle => absurd (hk.trans hle) (by decide))

/-! ## The function -/

theorem params_lnMax : params.lnMax = 92288378626 := rfl
theorem params_lnMin : params.lnMin = -95265423098 := rfl

theorem expQ_zero : expQ params 0 = .ok 4294967296 := rfl

theorem expQ_one : expQ params 4294967296 = .ok 11674931554 := rfl

theorem expQ_of_large {x : Int} (h : 92288378626 ≤ x) : expQ params x = .ok 9223372036854775807 := by
  have hzero : x ≠ 0 := by omega
  have hone : x ≠ qOne := by rw [qOne]; omega
  rw [expQ, if_neg hzero, if_neg hone]
  exact if_pos h

theorem expQ_of_small {x : Int} (h : x ≤ -95265423098) : expQ params x = .ok 0 := by
  have hzero : x ≠ 0 := by omega
  have hone : x ≠ qOne := by rw [qOne]; omega
  have hmax : ¬ x ≥ params.lnMax := by rw [params_lnMax]; omega
  rw [expQ, if_neg hzero, if_neg hone, if_neg hmax]
  exact if_pos h

/-- What EXP makes of the sum for its operand's magnitude: the reciprocal `div(ONE, sum)` if the operand is negative. -/
def signedExp (x sum : Int) : Int :=
  if x < 0 then (2 * 18446744073709551616 + sum) / (2 * sum) else sum

/-- The reciprocal of a sum of at least ONE is at most ONE. -/
theorem reciprocal_range {sum : Int} (h : 4294967296 ≤ sum) :
    0 ≤ (2 * 18446744073709551616 + sum) / (2 * sum) ∧
      (2 * 18446744073709551616 + sum) / (2 * sum) < 4294967297 :=
  ⟨Int.ediv_nonneg (by omega) (by omega), Int.ediv_lt_of_lt_mul (by omega) (by omega)⟩

theorem divQ_qOne {sum : Int} (h : 4294967296 ≤ sum) :
    divQ params.divRound qOne sum = .ok ((2 * 18446744073709551616 + sum) / (2 * sum)) := by
  have hrange := reciprocal_range h
  have hscale : 2 * (qOne * 4294967296) = 2 * 18446744073709551616 := rfl
  rw [divQ_of_nonneg (by decide) (by omega), hscale, sat64_of_fits (by omega)]

theorem signedExp_range (x : Int) {sum : Int} (h : 4294967296 ≤ sum ∧ sum ≤ 9223372036854775807) :
    -9223372036854775808 ≤ signedExp x sum ∧ signedExp x sum ≤ 9223372036854775807 := by
  obtain ⟨hlo, hhi⟩ := h
  have hrange := reciprocal_range hlo
  rw [signedExp]
  split_ifs <;> omega

theorem expQ_of_series {x : Int} (hzero : x ≠ 0) (hone : x ≠ 4294967296) (hlo : -95265423098 < x)
    (hhi : x < 92288378626) :
    ∃ n, StopsAfter |x| 40 n ∧ expQ params x = .ok (signedExp x (expSum |x| n)) := by
  obtain ⟨n, hstop, hseries⟩ := expSeries_params (abs_nonneg x)
  obtain ⟨hsum, -⟩ := expSum_range (abs_nonneg x) n
  have hone' : x ≠ qOne := hone
  have hmax : ¬ x ≥ params.lnMax := by rw [params_lnMax]; omega
  have hmin : ¬ x ≤ params.lnMin := by rw [params_lnMin]; omega
  refine ⟨n, hstop, ?_⟩
  rw [expQ, if_neg hzero, if_neg hone', if_neg hmax, if_neg hmin, absInt_eq_abs, hseries, signedExp]
  split_ifs
  · exact divQ_qOne hsum
  · rfl

/-- EXP never faults: in each of its five cases it has a value, and the value fits (rule R180). -/
theorem expQ_fits (x : Int) :
    ∃ v, expQ params x = .ok v ∧ -9223372036854775808 ≤ v ∧ v ≤ 9223372036854775807 := by
  by_cases hzero : x = 0
  · exact ⟨_, hzero ▸ expQ_zero, by decide⟩
  by_cases hone : x = 4294967296
  · exact ⟨_, hone ▸ expQ_one, by decide⟩
  by_cases hlarge : 92288378626 ≤ x
  · exact ⟨_, expQ_of_large hlarge, by decide⟩
  by_cases hsmall : x ≤ -95265423098
  · exact ⟨_, expQ_of_small hsmall, by decide⟩
  obtain ⟨n, -, hexp⟩ := expQ_of_series hzero hone (not_le.mp hsmall) (not_le.mp hlarge)
  exact ⟨_, hexp, signedExp_range x (expSum_range (abs_nonneg x) n)⟩

/-- Settles O43: EXP has one value, and each clause names the case that gives it. -/
theorem expSumsItsSeries : Obligations.ExpSumsItsSeries := by
  intro a b s h
  obtain ⟨v, hv, hfits⟩ := expQ_fits a.toInt
  have hr : (resultQ v).toInt = v := toInt_ofInt64 hfits
  have hvalue {w : Int} (hw : expQ params a.toInt = .ok w) : (resultQ v).toInt = w :=
    hr.trans (Except.ok.inj (hv.symm.trans hw))
  refine ⟨decode_setWidth 0x26#8 a b, _, computeValue_map_ok h hv, fun ha => hvalue (ha ▸ expQ_zero),
    fun ha => hvalue (ha ▸ expQ_one), fun ha => hvalue (expQ_of_large ha), fun ha => hvalue (expQ_of_small ha),
    fun hzero hone hlo hhi => ?_⟩
  obtain ⟨n, ⟨hbound, hterms, hlast⟩, hexp⟩ := expQ_of_series hzero hone hlo hhi
  obtain ⟨hsum, -⟩ := expSum_range (abs_nonneg a.toInt) n
  exact ⟨n, hbound, hterms, hlast, hsum, hvalue hexp⟩

end Sys2Proof.Machine
end

section
/-! The raw draw (`spec/43_random.md` rule R211): its value from the two words under the advanced cursors, the bounds of
the value, and the cursors. -/

namespace Sys2Proof.Machine

open Sys2Proof.Claims

/-! ## 32-bit arithmetic -/

theorem wrap32_eq_bmod (v : Int) : wrap32 v = Int.bmod v 4294967296 := by
  rw [Int.bmod_def, wrap32]
  split_ifs <;> omega

theorem addMBigIfNegative_eq_norm32 (v : Int) : addMBigIfNegative v = norm32 v := by
  rw [addMBigIfNegative, norm32, wrap32_eq_bmod]
  rfl

/-! ## The value -/

theorem drawValue_eq_drawnValue (x y : Int) : drawValue x y = drawnValue x y := by
  rw [drawValue, drawnValue, wrap32_eq_bmod, addMBigIfNegative_eq_norm32]
  rfl

/-- A negative difference gets MBIG added, which leaves only `I32MIN` negative; a difference of MBIG is decremented. -/
theorem drawValue_range (x y : Int) :
    (-1 ≤ drawValue x y ∧ drawValue x y ≤ 2147483646) ∧ (drawValue x y = -1 → wrap32 (x - y) = -2147483648) := by
  have hdiff := wrap32_range (x - y)
  rw [drawValue]
  generalize wrap32 (x - y) = v at *
  by_cases hbig : v = mBig
  · subst hbig
    decide
  · simp only [if_neg hbig, addMBigIfNegative]
    rw [mBig] at *
    split_ifs with hneg
    · rw [wrap32_of_fits (by omega)]
      omega
    · omega

theorem rawDraw_range (g : Prng) : -1 ≤ (rawDraw g).1 ∧ (rawDraw g).1 ≤ 2147483646 :=
  (drawValue_range _ _).1

/-! ## The cursors -/

theorem advance_val (i : Fin 56) : (advance i).val = cursorAfter i.val := by
  revert i
  decide

/-- An advance adds 1 modulo 55, also at the wrap, where 56 becomes 1. -/
theorem cursorAfter_emod {c : Nat} (h : c < 56) : (cursorAfter c : Int) % 55 = (c + 1) % 55 := by
  rw [cursorAfter]
  split_ifs <;> omega

theorem advance_sub_emod (i j : Fin 56) :
    (((advance i).val : Int) - (advance j).val) % 55 = ((i.val : Int) - j.val) % 55 := by
  have hi := cursorAfter_emod i.isLt
  have hj := cursorAfter_emod j.isLt
  rw [advance_val, advance_val]
  omega

/-- Settles O47: the words under the advanced cursors give the value, which replaces the first of them. -/
theorem rawDrawIsTheSubtractiveStep : Obligations.RawDrawIsTheSubtractiveStep := by
  intro g
  obtain ⟨hlo, hhi⟩ := rawDraw_range g
  refine ⟨advance g.inext, advance g.inextp, (rawDraw g).1, advance_val _, advance_val _,
    drawValue_eq_drawnValue _ _, rfl, hlo, hhi, fun hneg => ?_, fun hg => (rawDraw_in_range hg).1,
    rawDraw_cursorsDrawn g, advance_sub_emod _ _⟩
  rw [← wrap32_eq_bmod]
  exact (drawValue_range _ _).2 hneg

end Sys2Proof.Machine
end

section
/-! Raw draws as fractions (`spec/43_random.md` rules R213, R215 and R221): each is an exact rational rounded to nearest
by the magnitude of DIV, and the odd divisor leaves no tie. The range of a fraction follows from its error bound. -/

namespace Sys2Proof.Machine

open Sys2Proof.Claims

theorem two_mul_abs_lt_iff {e c : Int} : 2 * |e| < c ↔ -c < 2 * e ∧ 2 * e < c := by
  rcases abs_cases e with ⟨habs, hsign⟩ | ⟨habs, hsign⟩ <;> omega

/-! ## The fraction of MBIG -/

theorem isFraction_iff {r f : Int} :
    IsFraction r f ↔ -2147483647 < 2 * (r * 4294967296 - f * 2147483647) ∧
      2 * (r * 4294967296 - f * 2147483647) < 2147483647 :=
  two_mul_abs_lt_iff

/-- DIV of two Q31.32 integers: their scale drops out of the rounding error. -/
theorem divQ_mBig {r : Int} (hr : -1 ≤ r ∧ r ≤ 2147483646) :
    ∃ f, divQ params.divRound (fromInt r) (fromInt mBig) = .ok f ∧ IsFraction r f := by
  have hdiv : divQ params.divRound (fromInt r) (fromInt mBig) = _ :=
    divQ_of_ne_zero .halfAway (fromInt r) (by decide)
  obtain ⟨hnear, -⟩ := signedQuotient_nearest (fromInt r) (b := fromInt mBig) (by decide) rfl
  generalize withSign (fromInt r) _ = f at hdiv hnear
  have hscale : fromInt r * 4294967296 - f * fromInt mBig = (r * 4294967296 - f * 2147483647) * 4294967296 := by
    simp only [fromInt, mBig]
    ring
  have hdivisor : |fromInt mBig| = 2147483647 * 4294967296 := rfl
  rw [hscale, hdivisor, abs_mul, abs_of_pos (by decide : (0 : Int) < 4294967296)] at hnear
  have hf : IsFraction r f := by
    rw [IsFraction]
    omega
  have hbounds := isFraction_iff.mp hf
  rw [sat64_of_fits (by omega)] at hdiv
  exact ⟨f, hdiv, hf⟩

theorem isFraction_range {r f : Int} (h : IsFraction r f) (hr : 0 ≤ r ∧ r ≤ 2147483646) :
    0 ≤ f ∧ f ≤ 4294967294 := by
  have hbounds := isFraction_iff.mp h
  omega

/-- Also for the raw draw -1, which only a WRPRNG makes possible. -/
theorem isFraction_range_of_draw {r f : Int} (h : IsFraction r f) (hr : -1 ≤ r ∧ r ≤ 2147483646) :
    -2 ≤ f ∧ f ≤ 4294967294 := by
  have hbounds := isFraction_iff.mp h
  omega

theorem isFraction_neg_one {f : Int} (h : IsFraction (-1) f) : f = -2 := by
  have hbounds := isFraction_iff.mp h
  omega

/-- Settles O51: the error bound determines the fraction of each draw. -/
theorem sampleIsTheNearestFraction : Obligations.SampleIsTheNearestFraction := by
  intro r hlo hhi
  obtain ⟨f, hdiv, hf⟩ := divQ_mBig ⟨hlo, hhi⟩
  have hbounds := isFraction_iff.mp hf
  exact ⟨f, hdiv, hf, fun h => isFraction_range hf ⟨h, hhi⟩, by omega, by omega, by omega⟩

/-! ## Uniform (rule R221) -/

/-- Uniform divides by I32MAX, which is MBIG, and its difference from ONE does not saturate. -/
theorem uniformQ_ok {r : Int} (hr : -1 ≤ r ∧ r ≤ 2147483646) :
    ∃ f, IsFraction r f ∧ uniformQ params r = .ok (4294967296 - f) := by
  obtain ⟨f, hdiv, hf⟩ := divQ_mBig hr
  have hrange := isFraction_range_of_draw hf hr
  have hsub : subQ qOne f = 4294967296 - f := sat64_of_fits (by rw [qOne]; omega)
  have hdiv' : divQ params.divRound (fromInt r) (fromInt i32Max) = .ok f := hdiv
  refine ⟨f, hf, ?_⟩
  rw [uniformQ, hdiv', ← hsub]
  rfl

/-- Settles O55: Uniform is ONE minus the fraction, whose values are those of Sample. -/
theorem uniformLiesInTheHalfOpenUnit : Obligations.UniformLiesInTheHalfOpenUnit := by
  intro r hlo hhi
  obtain ⟨f, hf, huniform⟩ := uniformQ_ok ⟨hlo, hhi⟩
  have hbounds := isFraction_iff.mp hf
  exact ⟨f, hf, huniform, by omega, by omega, by omega, by omega⟩

/-! ## LargeSample (rule R215) -/

/-- The numerator's integer lies in [0, 2·I32MAX − 2], below the divisor. -/
theorem isLargeFraction_range {r1 r2 d : Int} (h : IsLargeFraction r1 r2 d) (hr1 : -1 ≤ r1 ∧ r1 ≤ 2147483646) :
    0 ≤ d ∧ d ≤ 4294967295 := by
  have hbounds := two_mul_abs_lt_iff.mp h
  split_ifs at hbounds <;> omega

theorem isLargeFraction_largeFraction (r1 r2 : Int) : IsLargeFraction r1 r2 (largeFraction r1 r2) := by
  obtain ⟨hnear, -⟩ := quotMagnitude_halfAway_nearest
    (((if r2 % 2 = 0 then -r1 else r1) + 2147483646) * 4294967296) (by decide : (0 : Int) < 4294967293)
  change 2 * |_ - largeFraction r1 r2 * 4294967293| ≤ 4294967293 at hnear
  rw [IsLargeFraction]
  omega

/-- Settles O53: the quotient of the magnitudes is nearest, and that bounds it. -/
theorem largeFractionIsBelowOne : Obligations.LargeFractionIsBelowOne :=
  fun r1 r2 hlo hhi _ _ => ⟨isLargeFraction_largeFraction r1 r2,
    isLargeFraction_range (isLargeFraction_largeFraction r1 r2) ⟨hlo, hhi⟩⟩

end Sys2Proof.Machine
end

section
/-! NEXT, NEXTMAX and NEXTRANGE (`spec/43_random.md` rules R212, R214 and R216) while FAULT is clear: their faults, their
draws and the bounds of their results. -/

namespace Sys2Proof.Machine

open Sys2Proof.Claims

/-! ## A draw command's outcomes (rule R302) -/

/-- A draw command whose operand check fails takes that fault before anything else. -/
theorem computeDraw_of_check_error {s : State} {c : FaultCode} (draw : Prng → Except FaultCode (Word × Prng))
    (h : s.fault = codeOk) :
    computeDraw s (.error c) draw = .next { s with status := c.code, fault := c.code } :=
  (compute_of_clear (.error c) h).trans (congrArg Host.Outcome.next (raise_of_clear c h))

theorem computeDraw_of_unseeded {s : State} (draw : Prng → Except FaultCode (Word × Prng)) (h : s.fault = codeOk)
    (hs : s.seeded = false) :
    computeDraw s (.ok ()) draw = .next { s with status := 0x07#8, fault := 0x07#8 } :=
  (computeDraw_unseeded h hs).trans (congrArg Host.Outcome.next (raise_of_clear .notSeeded h))

/-- A seeded draw command that computes its result from one raw draw. -/
theorem computeDraw_oneDraw {s : State} {value : Int → Except FaultCode Word} {w : Word} (h : s.fault = codeOk)
    (hs : s.seeded = true) (hv : value (rawDraw s.prng).1 = .ok w) :
    computeDraw s (.ok ()) (oneDraw value) =
      .next { s with prng := (rawDraw s.prng).2, result := w, status := 0x00#8 } :=
  computeDraw_ok (draw := oneDraw value) h hs (congrArg (Except.map fun w => (w, (rawDraw s.prng).2)) hv)

/-- A seeded draw command that computes its result from two raw draws. -/
theorem computeDraw_twoDraws {s : State} {value : Int → Int → Except FaultCode Word} {w : Word}
    (h : s.fault = codeOk) (hs : s.seeded = true)
    (hv : value (rawDraw s.prng).1 (rawDraw (rawDraw s.prng).2).1 = .ok w) :
    computeDraw s (.ok ()) (twoDraws value) =
      .next { s with prng := (rawDraw (rawDraw s.prng).2).2, result := w, status := 0x00#8 } :=
  computeDraw_ok (draw := twoDraws value) h hs
    (congrArg (Except.map fun w => (w, (rawDraw (rawDraw s.prng).2).2)) hv)

/-! ## NEXT -/

/-- Settles O50: RESULT holds the raw draw, which has the range of its words under the invariant. -/
theorem nextReturnsTheRawDraw : Obligations.NextReturnsTheRawDraw := by
  refine fun a b s h => ⟨decode_setWidth 0x31#8 a b, computeDraw_of_unseeded _ h, fun hs => ?_⟩
  have hr : (resultI32 (rawDraw s.prng).1).toInt = (rawDraw s.prng).1 := by
    have hrange := rawDraw_range s.prng
    exact toInt_ofInt64 (by omega)
  refine ⟨_, computeDraw_oneDraw (value := fun r => .ok (resultI32 r)) h hs rfl, hr, fun hinv => ?_⟩
  have hrange := rawDraw_in_range hinv
  rw [hr]
  omega

/-! ## The scaled draw -/

/-- A fraction in [0, ONE) of a range of at least 1 has its floor below the range. -/
theorem scaled_range {f range : Int} (hf : 0 ≤ f ∧ f ≤ 4294967295) (hrange : 1 ≤ range) :
    0 ≤ f * range / 4294967296 ∧ f * range / 4294967296 ≤ range - 1 := by
  obtain ⟨hlo, hhi⟩ := hf
  have hnonneg : 0 ≤ f * range := mul_nonneg hlo (by omega)
  have hle : f * range ≤ 4294967295 * range := mul_le_mul_of_nonneg_right hhi (by omega)
  omega

/-- The scaled draw of a range that fits 32 bits: the product does not saturate, and is the fraction's floor, for the raw
draw -1 as well. -/
theorem scaledDraw_ok {r range : Int} (hr : -1 ≤ r ∧ r ≤ 2147483646) (hrange : 0 ≤ range ∧ range ≤ 2147483647) :
    ∃ f, IsFraction r f ∧ scaledDraw params r range = .ok (f * range / 4294967296) ∧
      (-2147483648 ≤ f * range / 4294967296 ∧ f * range / 4294967296 ≤ 2147483647) := by
  obtain ⟨f, hdiv, hf⟩ := divQ_mBig hr
  obtain ⟨hflo, hfhi⟩ := isFraction_range_of_draw hf hr
  obtain ⟨hlo, hhi⟩ := hrange
  have hprodlo : -2 * range ≤ f * range := mul_le_mul_of_nonneg_right hflo hlo
  have hprodhi : f * range ≤ 4294967294 * range := mul_le_mul_of_nonneg_right hfhi hlo
  have hscale : mul128 f (fromInt range) = f * range := by
    rw [mul128, shr32, fromInt, ← mul_assoc]
    exact Int.mul_ediv_cancel _ (by decide)
  have hmul : mulQ f (fromInt range) = f * range := by
    rw [mulQ_eq_mul128 (by omega), hscale]
  refine ⟨f, hf, ?_, by omega⟩
  rw [scaledDraw, sampleQ, hdiv, ← hmul]
  rfl

/-- Under the invariant the fraction is not negative, so the scaled draw lies below its range. -/
theorem scaled_range_of_inRange {g : Prng} {f range : Int} (hg : SeedArrayInRange g)
    (hf : IsFraction (rawDraw g).1 f) (hrange : 1 ≤ range) :
    0 ≤ f * range / 4294967296 ∧ f * range / 4294967296 ≤ range - 1 := by
  have hr := rawDraw_in_range hg
  have hfrac := isFraction_range hf (by omega)
  exact scaled_range (by omega) hrange

/-! ## NEXTMAX -/

theorem maxCheck_of_neg {maxValue : Int} (h : maxValue < 0) : maxCheck maxValue = .error .prngRange :=
  if_pos h

theorem maxCheck_of_nonneg {maxValue : Int} (h : 0 ≤ maxValue) : maxCheck maxValue = .ok () :=
  if_neg h.not_gt

theorem exec_nextmax_of_nonneg {maxValue : Int} (s : State) (h : 0 ≤ maxValue) :
    exec (.nextmax maxValue) s = computeDraw s (.ok ()) (nextMaxDraw params maxValue) :=
  congrArg (computeDraw s · (nextMaxDraw params maxValue)) (maxCheck_of_nonneg h)

theorem exec_nextmax_ok {maxValue v : Int} {s : State} (h : s.fault = codeOk) (hs : s.seeded = true)
    (hmax : 0 ≤ maxValue) (hv : scaledDraw params (rawDraw s.prng).1 maxValue = .ok v) :
    exec (.nextmax maxValue) s =
      .next { s with prng := (rawDraw s.prng).2, result := resultI32 v, status := 0x00#8 } := by
  rw [exec_nextmax_of_nonneg s hmax, nextMaxDraw_eq]
  exact computeDraw_oneDraw h hs (by rw [hv]; rfl)

/-- Settles O52: the checks in their order, then the scaled draw of the operand. -/
theorem nextmaxDrawsBelowItsBound : Obligations.NextmaxDrawsBelowItsBound := by
  refine fun a b s h => ⟨decode_setWidth 0x32#8 a b, fun hneg => ?_, fun hmax hs => ?_, fun hmax hs => ?_⟩
  · exact (congrArg (computeDraw s · _) (maxCheck_of_neg hneg)).trans (computeDraw_of_check_error _ h)
  · exact (exec_nextmax_of_nonneg s hmax).trans (computeDraw_of_unseeded _ h hs)
  · have hfits : low32 a ≤ 2147483647 := (readI32_range a).2
    obtain ⟨f, hf, hscaled, hrange⟩ := scaledDraw_ok (rawDraw_range s.prng) ⟨hmax, hfits⟩
    have hr : (resultI32 (f * low32 a / 4294967296)).toInt = f * low32 a / 4294967296 :=
      toInt_ofInt64 (by omega)
    refine ⟨_, f, hf, exec_nextmax_ok h hs hmax hscaled, hr, fun hzero => ?_, fun hinv hpos => ?_⟩
    · rw [hr, hzero]
      simp
    · rw [hr]
      exact scaled_range_of_inRange hinv hf hpos

/-! ## NEXTRANGE -/

theorem rangeCheck_of_le {lo hi : Int} (h : hi ≤ lo) : rangeCheck lo hi = .error .prngRange :=
  if_pos h

theorem rangeCheck_of_lt {lo hi : Int} (h : lo < hi) : rangeCheck lo hi = .ok () :=
  if_neg h.not_ge

theorem exec_nextrange_of_lt {lo hi : Int} (s : State) (h : lo < hi) :
    exec (.nextrange lo hi) s = computeDraw s (.ok ()) (nextRangeDraw params lo hi) :=
  congrArg (computeDraw s · (nextRangeDraw params lo hi)) (rangeCheck_of_lt h)

/-- The one-draw path: the range fits 32 bits. -/
theorem exec_nextrange_small {lo hi v : Int} {s : State} (h : s.fault = codeOk) (hs : s.seeded = true)
    (hlt : lo < hi) (hsmall : hi - lo ≤ 2147483647)
    (hv : scaledDraw params (rawDraw s.prng).1 (hi - lo) = .ok v) :
    exec (.nextrange lo hi) s =
      .next { s with prng := (rawDraw s.prng).2, result := resultI32 (lo + v), status := 0x00#8 } := by
  rw [exec_nextrange_of_lt s hlt, nextRangeDraw_of_small params hsmall]
  exact computeDraw_oneDraw h hs (by rw [hv]; rfl)

/-- The two-draw path: any larger range. -/
theorem exec_nextrange_large {lo hi : Int} {s : State} (h : s.fault = codeOk) (hs : s.seeded = true) (hlt : lo < hi)
    (hlarge : 2147483647 < hi - lo) :
    exec (.nextrange lo hi) s =
      .next { s with
        prng := (rawDraw (rawDraw s.prng).2).2
        result := resultI32
          (lo + largeFraction (rawDraw s.prng).1 (rawDraw (rawDraw s.prng).2).1 * (hi - lo) / 4294967296)
        status := 0x00#8 } := by
  rw [exec_nextrange_of_lt s hlt, nextRangeDraw_of_large params (not_le.mpr hlarge)]
  exact computeDraw_twoDraws h hs rfl

/-- Settles O54: the checks in their order, then one of the two paths; LargeSample's fraction is never negative, so the
two-draw path needs no invariant. -/
theorem nextrangeDrawsWithinItsBounds : Obligations.NextrangeDrawsWithinItsBounds := by
  intro a b s h
  have ha : -2147483648 ≤ low32 a ∧ low32 a ≤ 2147483647 := readI32_range a
  have hb : -2147483648 ≤ low32 b ∧ low32 b ≤ 2147483647 := readI32_range b
  refine ⟨decode_setWidth 0x33#8 a b, fun hle => ?_, fun hlt hs => ?_, fun hlt hs hsmall => ?_,
    fun hlt hs hlarge => ?_⟩
  · exact (congrArg (computeDraw s · _) (rangeCheck_of_le hle)).trans (computeDraw_of_check_error _ h)
  · exact (exec_nextrange_of_lt s hlt).trans (computeDraw_of_unseeded _ h hs)
  · obtain ⟨f, hf, hscaled, hrange⟩ := scaledDraw_ok (rawDraw_range s.prng) (range := low32 b - low32 a) (by omega)
    have hr : (resultI32 (low32 a + f * (low32 b - low32 a) / 4294967296)).toInt =
        low32 a + f * (low32 b - low32 a) / 4294967296 := toInt_ofInt64 (by omega)
    refine ⟨_, f, hf, exec_nextrange_small h hs hlt hsmall hscaled, hr, fun hinv => ?_⟩
    have hbelow := scaled_range_of_inRange hinv hf (range := low32 b - low32 a) (by omega)
    rw [hr]
    omega
  · have hd := isLargeFraction_largeFraction (rawDraw s.prng).1 (rawDraw (rawDraw s.prng).2).1
    have hexec := exec_nextrange_large h hs hlt hlarge
    have hbelow := scaled_range (isLargeFraction_range hd (rawDraw_range _)) (range := low32 b - low32 a) (by omega)
    generalize largeFraction _ _ = d at hd hexec hbelow
    have hr : (resultI32 (low32 a + d * (low32 b - low32 a) / 4294967296)).toInt =
        low32 a + d * (low32 b - low32 a) / 4294967296 := toInt_ofInt64 (by omega)
    refine ⟨_, d, hd, hexec, hr, ?_⟩
    rw [hr]
    omega

end Sys2Proof.Machine
end

section
/-! GAUSS (`spec/43_random.md` rule R220): the sine is at most ONE, LN of a Uniform value lies between LN of 2 raw and 0,
and so the radius and the sample are bounded; a first draw of -1 makes the logarithm positive. -/

namespace Sys2Proof.Machine

open Sys2Proof.Claims

/-! ## The sine is at most ONE -/

theorem entryAt_mono {i j : Int} (hi : 0 ≤ i) (hij : i ≤ j) (hj : j ≤ 255) : entryAt i ≤ entryAt j := by
  induction j, hij using Int.leInduction with
  | base => exact le_rfl
  | succ k hik ih =>
    have hk : (k + 1).toNat = k.toNat + 1 := by omega
    calc entryAt i ≤ entryAt k := ih (by omega)
      _ ≤ romEntry params.sineTable (k.toNat + 1) := romEntry_mono k.toNat (by omega)
      _ = entryAt (k + 1) := by rw [entryAt, hk]

/-- The index moves up the table when the position is past its nearest entry, and the mirror reverses that. -/
theorem nearestIndex_le_adjacentIndex {x : Int} (h : flipH params x = true ↔ posError params x < 0) :
    nearestIndex params x ≤ adjacentIndex params x := by
  rw [nearestIndex, adjacentIndex, signQ]
  split_ifs with hflip <;> simp only [hflip] at h <;> grind

theorem adjacentIndex_le_nearestIndex {x : Int} (h : ¬(flipH params x = true ↔ posError params x < 0)) :
    adjacentIndex params x ≤ nearestIndex params x := by
  rw [nearestIndex, adjacentIndex, signQ]
  split_ifs with hflip <;> grind

/-- The correction has the sign of the error, and half a step does not pass the adjacent entry. -/
theorem correction_toward {err : Int} (near adj : Int) (he : -2147483648 ≤ err ∧ err ≤ 2147483648) :
    (0 ≤ err → 0 ≤ correction err near adj ∧ correction err near adj ≤ |near - adj|) ∧
      (err < 0 → -|near - adj| ≤ correction err near adj ∧ correction err near adj ≤ 0) := by
  obtain ⟨hlo, hhi⟩ := he
  have hdist := abs_nonneg (near - adj)
  rw [correction]
  generalize |near - adj| = d at *
  have hprodlo : -2147483648 * d ≤ err * d := mul_le_mul_of_nonneg_right hlo hdist
  have hprodhi : err * d ≤ 2147483648 * d := mul_le_mul_of_nonneg_right hhi hdist
  refine ⟨fun hpos => ?_, fun hneg => ?_⟩
  · have hsign : 0 ≤ err * d := mul_nonneg hpos hdist
    omega
  · have hsign : err * d ≤ 0 := mul_nonpos_of_nonpos_of_nonneg hneg.le hdist
    omega

/-- The interpolated value lies between the two entries. -/
theorem abs_interpolate_le (x : Int) :
    |interpolate params x (entryAt (nearestIndex params x)) (entryAt (adjacentIndex params x))| ≤ 4294967296 := by
  obtain ⟨hnlo, hnhi⟩ := nearestIndex_range x
  obtain ⟨halo, hahi⟩ := adjacentIndex_range x
  have hnear := entryAt_range ⟨hnlo, hnhi⟩
  have hadj := entryAt_range ⟨halo, hahi⟩
  obtain ⟨hpos, hneg⟩ :=
    correction_toward (entryAt (nearestIndex params x)) (entryAt (adjacentIndex params x)) (posError_range x)
  rw [interpolate_eq x hnear hadj]
  by_cases hdir : flipH params x = true ↔ posError params x < 0
  · have hle := entryAt_mono hnlo (nearestIndex_le_adjacentIndex hdir) hahi
    rw [abs_sub_comm, abs_of_nonneg (sub_nonneg.mpr hle)] at hpos hneg
    grind
  · have hle := entryAt_mono halo (adjacentIndex_le_nearestIndex hdir) hnhi
    rw [abs_of_nonneg (sub_nonneg.mpr hle)] at hpos hneg
    grind

theorem sinCore_abs_le {x v : Int} (h : sinCore params x = .ok v) : |v| ≤ 4294967296 := by
  rw [sinCore_eq] at h
  exact Except.ok.inj h ▸ abs_interpolate_le x

/-! ## The logarithm of a Uniform value -/

theorem log2Q_uniform {u : Int} (h : 2 ≤ u ∧ u ≤ 4294967296) :
    ∃ y, log2Q u = .ok y ∧ -133143986176 ≤ y ∧ y ≤ 0 := by
  by_cases hone : u = 4294967296
  · exact ⟨0, hone ▸ rfl, by decide, le_rfl⟩
  · obtain ⟨z, n, ⟨hz, hup, hdown, hnlo, -⟩, hlog⟩ := log2Q_normalised (x := u) (by omega)
    have hfrac := log2Fraction_range 32 z
    have hneg : n < 0 := not_le.mp fun hn => by
      have := (hdown hn).1
      omega
    have hn : n ≠ -32 := by
      rintro rfl
      have hdoubled : z = u * 2 ^ 32 := (hup hneg).2
      omega
    exact ⟨_, hlog, by omega, by omega⟩

theorem lnQ_uniform {u : Int} (h : 2 ≤ u ∧ u ≤ 4294967296) :
    ∃ l, lnQ params u = .ok l ∧ -92288378601 ≤ l ∧ l ≤ 0 := by
  obtain ⟨y, hlog, hlo, hhi⟩ := log2Q_uniform h
  exact ⟨_, lnQ_of_log2Q (by omega) hlog, by omega, by omega⟩

/-! ## The radius -/

theorem sat64_eq_clamp64 (v : Int) : sat64 v = clamp64 v :=
  sat64_eq_clamp v

theorem clamp64_of_fits {v : Int} (h : -9223372036854775808 ≤ v ∧ v ≤ 9223372036854775807) : clamp64 v = v :=
  (sat64_eq_clamp64 v).symm.trans (sat64_of_fits h)

/-- The square of the root's midpoint below bounds the operand. -/
theorem nearestRoot_le_of_sq {n bound : Nat} (h : 4 * n ≤ (2 * bound + 1) * (2 * bound + 1)) :
    nearestRoot n ≤ bound := by
  obtain ⟨hlo, -⟩ := nearestRoot_bounds n
  by_contra hbig
  have hr : (bound : Int) + 1 ≤ nearestRoot n := by omega
  have hsq := hlo.resolve_left (by omega)
  zify at h
  nlinarith

/-- The root of at most `2·ln(2^31)` is below 6.56 (rule R220). -/
theorem sqrtQ_radius {l : Int} (h : -92288378601 ≤ l ∧ l ≤ 0) :
    ∃ rad, sqrtQ (clamp64 (-2 * l)) = .ok rad ∧ 0 ≤ rad ∧ rad ≤ 28174985461 := by
  have hle := nearestRoot_le_of_sq (n := (-2 * l * 4294967296).toNat) (bound := 28174985461) (by omega)
  rw [clamp64_of_fits (by omega)]
  exact ⟨_, sqrtQ_of_nonneg (by omega), by omega, by omega⟩

/-! ## The sample -/

/-- What a non-negative first draw and any second one make (rule R220). -/
def IsGaussSample (r1 r2 v : Int) : Prop :=
  ∃ f1 f2 l rad sine : Int, IsFraction r1 f1 ∧ IsFraction r2 f2 ∧ lnQ params (4294967296 - f1) = .ok l ∧
    sqrtQ (clamp64 (-2 * l)) = .ok rad ∧
    sinCore params (clamp64 (26986075409 * (4294967296 - f2) / 4294967296)) = .ok sine ∧
    v = clamp64 (rad * sine / 4294967296) ∧ |v| < 28174985462

theorem mulQ_neg_two (l : Int) : mulQ (fromInt (-2)) l = clamp64 (-2 * l) := by
  have hscale : shr32 (fromInt (-2) * l) = -2 * l := by
    rw [shr32, fromInt]
    omega
  rw [mulQ, hscale, sat64_eq_clamp64]

theorem mulQ_twoPi (u : Int) : mulQ params.twoPi u = clamp64 (26986075409 * u / 4294967296) :=
  sat64_eq_clamp64 _

/-- A sine of at most ONE does not lengthen the radius. -/
theorem abs_clamp64_mul_sine_le {rad sine : Int} (hrad : 0 ≤ rad ∧ rad ≤ 28174985461) (hsine : |sine| ≤ 4294967296) :
    |clamp64 (rad * sine / 4294967296)| ≤ rad := by
  obtain ⟨hlo, hhi⟩ := hrad
  obtain ⟨hsinelo, hsinehi⟩ := abs_le.mp hsine
  have hprodlo : rad * -4294967296 ≤ rad * sine := mul_le_mul_of_nonneg_left hsinelo hlo
  have hprodhi : rad * sine ≤ rad * 4294967296 := mul_le_mul_of_nonneg_left hsinehi hlo
  rw [clamp64_of_fits (by omega)]
  exact abs_le.mpr (by omega)

theorem gaussValue_ok {r1 r2 : Int} (hr1 : 0 ≤ r1 ∧ r1 ≤ 2147483646) (hr2 : -1 ≤ r2 ∧ r2 ≤ 2147483646) :
    ∃ v, gaussValue params r1 r2 = .ok v ∧ IsGaussSample r1 r2 v := by
  obtain ⟨f1, hf1, hu1⟩ := uniformQ_ok (r := r1) (by omega)
  obtain ⟨f2, hf2, hu2⟩ := uniformQ_ok hr2
  have hrange1 := isFraction_range hf1 hr1
  obtain ⟨l, hl, hlrange⟩ := lnQ_uniform (u := 4294967296 - f1) (by omega)
  obtain ⟨rad, hrad, hradrange⟩ := sqrtQ_radius hlrange
  obtain ⟨sine, hsine⟩ : ∃ sine, sinCore params (clamp64 (26986075409 * (4294967296 - f2) / 4294967296)) = .ok sine :=
    ⟨_, sinCore_eq _⟩
  have hbound := abs_clamp64_mul_sine_le hradrange (sinCore_abs_le hsine)
  refine ⟨_, ?_, f1, f2, l, rad, sine, hf1, hf2, hl, hrad, hsine, rfl, by omega⟩
  rw [gaussValue, hu1, hu2]
  simp only [bind, Except.bind, hl, mulQ_neg_two, hrad, mulQ_twoPi, hsine]
  exact congrArg Except.ok (sat64_eq_clamp64 _)

/-- A first draw of -1 gives `u1 = ONE + 2`, whose logarithm is 1 raw, so the radius is the root of -2 (rule R220). -/
theorem gaussValue_neg_one {r1 r2 : Int} (hr1 : r1 = -1) (hr2 : -1 ≤ r2 ∧ r2 ≤ 2147483646) :
    gaussValue params r1 r2 = .error .sqrtNegative := by
  have hu1 : uniformQ params (-1) = .ok 4294967298 := rfl
  have hl : lnQ params 4294967298 = .ok 1 := rfl
  obtain ⟨f2, -, hu2⟩ := uniformQ_ok hr2
  rw [gaussValue, hr1, hu1, hu2]
  simp only [bind, Except.bind, hl]
  rfl

/-! ## GAUSS while FAULT is clear -/

theorem exec_gauss_ok {v : Int} {s : State} (h : s.fault = codeOk) (hs : s.seeded = true)
    (hv : gaussValue params (rawDraw s.prng).1 (rawDraw (rawDraw s.prng).2).1 = .ok v) :
    exec .gauss s =
      .next { s with prng := (rawDraw (rawDraw s.prng).2).2, result := resultQ v, status := 0x00#8 } := by
  change computeDraw s (.ok ()) (gaussDraw params) = _
  rw [gaussDraw_eq]
  exact computeDraw_twoDraws h hs (congrArg (Except.map resultQ) hv)

theorem exec_gauss_error {c : FaultCode} {s : State} (h : s.fault = codeOk) (hs : s.seeded = true)
    (hc : gaussValue params (rawDraw s.prng).1 (rawDraw (rawDraw s.prng).2).1 = .error c) :
    exec .gauss s = .next { s with status := c.code, fault := c.code } := by
  have hdraw : gaussDraw params s.prng = .error c := by
    rw [gaussDraw, hc]
    rfl
  exact (computeDraw_error h hs hdraw).trans (congrArg Host.Outcome.next (raise_of_clear c h))

/-- Settles O56: a draw of -1 faults, and any other first draw gives a sample. -/
theorem gaussCombinesTwoDraws : Obligations.GaussCombinesTwoDraws := by
  refine fun a b s h => ⟨decode_setWidth 0x34#8 a b, computeDraw_of_unseeded _ h, fun hs hr => ?_, fun hs hr => ?_,
    fun hinv => ?_⟩
  · exact exec_gauss_error h hs (gaussValue_neg_one hr (rawDraw_range _))
  · have hr1 := rawDraw_range s.prng
    obtain ⟨v, hv, f1, f2, l, rad, sine, hf1, hf2, hl, hrad, hsine, hvalue, hbound⟩ :=
      gaussValue_ok (r1 := (rawDraw s.prng).1) (by omega) (rawDraw_range (rawDraw s.prng).2)
    have hr : (resultQ v).toInt = v := by
      have hfits := abs_lt.mp hbound
      exact toInt_ofInt64 (by omega)
    exact ⟨_, f1, f2, l, rad, sine, hf1, hf2, hl, hrad, hsine, exec_gauss_ok h hs hv, hr.trans hvalue,
      hr.symm ▸ hbound⟩
  · have hrange := rawDraw_in_range hinv
    omega

end Sys2Proof.Machine
end

section
/-! SEED (`spec/43_random.md` rule R201). The seed array as a list of integers: each step of the model's recurrence on the
context is the same step on that list, so the words SEED builds are those of the list recurrence. -/

namespace Sys2Proof.Machine

open Sys2Proof.Claims

/-! ## The words as a list of integers -/

/-- The 56 words of the seed array as signed integers. -/
def Prng.words (g : Prng) : List Int := g.seedArray.toList.map BitVec.toInt

theorem Prng.getD_words (g : Prng) (i : Fin 56) : g.words.getD i.val 0 = g.read i := by
  simp [Prng.words, Prng.read]

theorem Prng.words_write (g : Prng) (i : Fin 56) {v : Int} (h : -2147483648 ≤ v ∧ v ≤ 2147483647) :
    (g.write i v).words = g.words.set i.val v := by
  have hv : (BitVec.ofInt 32 v).toInt = v := (toInt_ofInt32 v).trans (wrap32_of_fits h)
  simp only [Prng.words, Prng.write, Vector.toList_set, List.map_set, hv]

theorem norm32_range {v : Int} (h : -2147483648 ≤ v ∧ v ≤ 2147483647) :
    -2147483648 ≤ norm32 v ∧ norm32 v ≤ 2147483647 := by
  rw [norm32, ← wrap32_eq_bmod]
  split_ifs
  · exact wrap32_range _
  · exact h

/-- The value both recurrences write fits a word. -/
theorem norm32_bmod_range (v : Int) :
    -2147483648 ≤ norm32 (Int.bmod v 4294967296) ∧ norm32 (Int.bmod v 4294967296) ≤ 2147483647 :=
  norm32_range (wrap32_eq_bmod v ▸ wrap32_range v)

/-! ## The fill -/

theorem fillSlot_val (i : Nat) : (fillSlot i).val = 21 * i % 55 :=
  Nat.mod_eq_of_lt (by rw [seedStride]; omega)

theorem words_seedFill (steps i : Nat) (mj : Int) {mk : Int} (g : Prng)
    (h : -2147483648 ≤ mk ∧ mk ≤ 2147483647) :
    (seedFill steps i mj mk g).words = ((List.range' i steps).foldl fillStep (g.words, mj, mk)).1 := by
  induction steps generalizing i mj mk g with
  | zero => rfl
  | succ steps ih =>
    rw [seedFill, addMBigIfNegative_eq_norm32, wrap32_eq_bmod, ih _ _ _ (norm32_bmod_range _),
      Prng.words_write _ _ h, fillSlot_val]
    rfl

/-! ## The mixing passes -/

theorem mixNeighbour_val (i : Nat) : (mixNeighbour i).val = 1 + (i + 30) % 55 :=
  Nat.mod_eq_of_lt (by rw [mixOffset]; omega)

theorem words_mixStep {i : Nat} (g : Prng) (h : i < 56) : (mixStep i g).words = mixOne g.words i := by
  have hi : (Fin.ofNat 56 i).val = i := Nat.mod_eq_of_lt h
  rw [mixStep, addMBigIfNegative_eq_norm32, wrap32_eq_bmod, Prng.words_write _ _ (norm32_bmod_range _),
    ← Prng.getD_words, ← Prng.getD_words, mixNeighbour_val, hi]
  rfl

theorem words_mixPass {steps i : Nat} (g : Prng) (h : i + steps ≤ 56) :
    (mixPass steps i g).words = (List.range' i steps).foldl mixOne g.words := by
  induction steps generalizing i g with
  | zero => rfl
  | succ steps ih =>
    rw [mixPass, ih _ (by omega), words_mixStep _ (by omega)]
    rfl

theorem words_mixAll (passes : List Nat) (g : Prng) :
    (mixAll passes.length g).words =
      passes.foldl (fun l _ => (List.range' 1 55).foldl mixOne l) g.words := by
  induction passes generalizing g with
  | nil => rfl
  | cons _ passes ih =>
    rw [List.length_cons, mixAll, ih, words_mixPass _ (by decide), List.foldl_cons]

/-! ## The cursors -/

/-- Both cursors, which no step of seeding moves. -/
def Prng.cursors (g : Prng) : Fin 56 × Fin 56 := (g.inext, g.inextp)

theorem cursors_write (g : Prng) (i : Fin 56) (v : Int) : (g.write i v).cursors = g.cursors := rfl

theorem cursors_seedFill (steps i : Nat) (mj mk : Int) (g : Prng) :
    (seedFill steps i mj mk g).cursors = g.cursors := by
  induction steps generalizing i mj mk g with
  | zero => rfl
  | succ steps ih => exact ih _ _ _ _

theorem cursors_mixPass (steps i : Nat) (g : Prng) : (mixPass steps i g).cursors = g.cursors := by
  induction steps generalizing i g with
  | zero => rfl
  | succ steps ih => exact ih _ _

theorem cursors_mixAll (passes : Nat) (g : Prng) : (mixAll passes g).cursors = g.cursors := by
  induction passes generalizing g with
  | zero => rfl
  | succ passes ih => exact (ih _).trans (cursors_mixPass 55 1 g)

/-! ## The context SEED builds -/

theorem seedMagnitude_range {seed : Int} (h : -2147483648 ≤ seed ∧ seed ≤ 2147483647) :
    0 ≤ seedMagnitude seed ∧ seedMagnitude seed ≤ 2147483647 := by
  rw [seedMagnitude, absInt, i32Min, i32Max]
  split_ifs <;> omega

/-- The array before the fill, with the first word in place. -/
theorem words_start {mj : Int} (h : -2147483648 ≤ mj ∧ mj ≤ 2147483647) (i j : Fin 56) :
    (Prng.write { seedArray := Vector.replicate 56 0#32, inext := i, inextp := j } 55 mj).words =
      (List.replicate 56 0).set 55 mj :=
  Prng.words_write _ 55 h

theorem seedContext_words {seed : Int} (h : -2147483648 ≤ seed ∧ seed ≤ 2147483647) :
    (seedContext seed).words = seedTable seed := by
  have hmag := seedMagnitude_range h
  have hstart := words_start (mj := mSeed - seedMagnitude seed) (by rw [mSeed]; omega) inextInit inextpInit
  have hsub : seedMagnitude seed = if seed = -2147483648 then 2147483647 else |seed| := by
    rw [← absInt_eq_abs]
    rfl
  rw [seedContext, Prng.words_write _ _ (by decide), mixPasses, ← List.length_range (n := 4), words_mixAll,
    words_seedFill _ _ _ _ (by decide), hstart, hsub]
  rfl

theorem seedContext_cursors (seed : Int) : (seedContext seed).cursors = (0, 21) := by
  rw [seedContext, cursors_write, cursors_mixAll, cursors_seedFill, cursors_write]
  rfl

/-- Settles O44: the context's words are the list recurrence's. -/
theorem seedBuildsTheSeedTable : Obligations.SeedBuildsTheSeedTable := by
  intro a b s h
  obtain ⟨hinext, hinextp⟩ := Prod.mk.inj (seedContext_cursors (low32 a))
  have hwords : (seedContext (low32 a)).words = seedTable (low32 a) := seedContext_words (readI32_range a)
  have hexec := exec_seed_of_clear (low32 a) h
  have hread := (seedContext (low32 a)).getD_words
  rw [hwords] at hread
  generalize seedContext (low32 a) = g at hinext hinextp hexec hread
  exact ⟨decode_setWidth 0x30#8 a b, g, hexec, fun k => (hread k).symm, hinext, hinextp⟩

/-! ## Seeds that build the same context -/

theorem seedMagnitude_neg {n : Int} (h : -2147483648 < n ∧ n ≤ 2147483647) :
    seedMagnitude (-n) = seedMagnitude n := by
  simp only [seedMagnitude, absInt_eq_abs, abs_neg, i32Min]
  split_ifs <;> omega

theorem exec_seed_congr {m n : Int} (s : State) (h : seedMagnitude m = seedMagnitude n) :
    exec (.seed m) s = exec (.seed n) s := by
  simp only [exec, execSeed, seedContext, h]

/-- Settles O45: the seed enters only through its magnitude. -/
theorem seedIgnoresTheSign : Obligations.SeedIgnoresTheSign :=
  fun _ s hlo hhi => ⟨exec_seed_congr s (seedMagnitude_neg ⟨hlo, hhi⟩), exec_seed_congr s rfl⟩

/-- Settles O46, by evaluating the seed table of seed 0 and its first draw. -/
theorem seedZeroGoldenWords : Obligations.SeedZeroGoldenWords := by
  unfold Obligations.SeedZeroGoldenWords
  decide +kernel

end Sys2Proof.Machine
end

section
/-! The control commands (`spec/44_control.md` rules R250 to R254): the bit layout of RDSTATUS's word, what each state index
reads and accepts, and the statements of the family. None of these commands is ever BLOCKED (rule R305), so every statement
is from an arbitrary state. -/

namespace Sys2Proof.Machine

/-! ## The bit fields of RDSTATUS's word (rule R251) -/

theorem seededWord_getLsbD (b : Bool) (i : Nat) : (seededWord b).getLsbD i = (decide (i = 0) && b) := by
  cases b <;> simp [seededWord]

/-- Bit by bit: FAULT from bit 0, SEEDED at bit 8, the previous STATUS from bit 16, and zeros between and above. -/
theorem statusWord_getLsbD (fault prev : Code) (seeded : Bool) (i : Nat) :
    (statusWord fault seeded prev).getLsbD i =
      if i < 8 then fault.getLsbD i
      else if i = 8 then seeded
      else if 16 ≤ i ∧ i < 24 then prev.getLsbD (i - 16)
      else false := by
  simp only [statusWord, BitVec.getLsbD_or, BitVec.getLsbD_setWidth, BitVec.getLsbD_shiftLeft, seededWord_getLsbD]
  split_ifs with hfault hseeded hprev
  · have hlow : i < 64 ∧ i < 16 := by omega
    simp [hfault, hlow]
  · subst hseeded
    simp
  · have hrange : i < 64 ∧ i - 8 ≠ 0 ∧ i - 16 < 64 := by omega
    simp [BitVec.getLsbD_of_ge fault i (by omega), hrange, hprev]
  · have hphase : i - 8 ≠ 0 := by omega
    rcases lt_or_ge i 16 with hlow | hhigh
    · simp [BitVec.getLsbD_of_ge fault i (by omega), hphase, hlow]
    · simp [BitVec.getLsbD_of_ge fault i (by omega), hphase, BitVec.getLsbD_of_ge prev (i - 16) (by omega)]

theorem statusWord_unused (fault prev : Code) (seeded : Bool) {i : Nat} (h : 8 < i ∧ i < 16 ∨ 24 ≤ i) :
    (statusWord fault seeded prev).getLsbD i = false := by
  rw [statusWord_getLsbD, if_neg (by omega), if_neg (by omega), if_neg (by omega)]

theorem statusWord_fault (fault prev : Code) (seeded : Bool) :
    (statusWord fault seeded prev).extractLsb' 0 8 = fault := by
  ext i hi
  rw [BitVec.getElem_extractLsb', statusWord_getLsbD, if_pos (by omega), Nat.zero_add, BitVec.getLsbD_eq_getElem]

theorem statusWord_seeded (fault prev : Code) (seeded : Bool) :
    (statusWord fault seeded prev).getLsbD 8 = seeded :=
  statusWord_getLsbD fault prev seeded 8

theorem statusWord_gap (fault prev : Code) (seeded : Bool) :
    (statusWord fault seeded prev).extractLsb' 9 7 = 0#7 := by
  ext i hi
  rw [BitVec.getElem_extractLsb', statusWord_unused _ _ _ (by omega), BitVec.getElem_zero]

theorem statusWord_prev (fault prev : Code) (seeded : Bool) :
    (statusWord fault seeded prev).extractLsb' 16 8 = prev := by
  ext i hi
  rw [BitVec.getElem_extractLsb', statusWord_getLsbD, if_neg (by omega), if_neg (by omega), if_pos (by omega),
    Nat.add_sub_cancel_left, BitVec.getLsbD_eq_getElem]

theorem statusWord_high (fault prev : Code) (seeded : Bool) :
    (statusWord fault seeded prev).extractLsb' 24 40 = 0#40 := by
  ext i hi
  rw [BitVec.getElem_extractLsb', statusWord_unused _ _ _ (by omega), BitVec.getElem_zero]

/-- Settles O19, field by field of the status word. -/
theorem rdstatusReportsTheFaultState : Obligations.RdstatusReportsTheFaultState :=
  fun a b _ => ⟨decode_setWidth 0x01#8 a b, _, rfl, statusWord_fault .., statusWord_seeded .., statusWord_gap ..,
    statusWord_prev .., statusWord_high ..⟩

/-! ## What RDPRNG reads at each state index (rule R253) -/

theorem readElement_word (s : State) (i : Fin 56) :
    readElement s i.val = .ok ((s.prng.seedArray[i]).signExtend 64) := by
  have hout : ¬ ((i.val : Int) < 0 ∨ (i.val : Int) > 58) := by omega
  have hword : (i.val : Int) ≤ 55 := by omega
  rw [readElement, if_neg hout, if_pos hword, fin56_ofNat_toNat]
  rfl

theorem readElement_seeded (s : State) : readElement s 58 = .ok (seededWord s.seeded) := rfl

theorem readElement_of_badIndex (s : State) {idx : Int} (h : idx < 0 ∨ 58 < idx) :
    readElement s idx = .error .badStateAccess :=
  if_pos h

theorem exec_rdprng_error {idx : Int} {s : State} {c : FaultCode} (h : readElement s idx = .error c) :
    exec (.rdprng idx) s = .next (s.raise c) :=
  congrArg (fun r : Except FaultCode Word => controlCommand s (r.map fun w => (s, w))) h

/-- Settles O21, region by region of the state index space. -/
theorem rdprngReadsEveryElement : Obligations.RdprngReadsEveryElement := by
  refine fun a b s => ⟨decode_setWidth 0x03#8 a b, ?_⟩
  generalize a.toInt = idx
  refine ⟨?_, ?_, ?_, ?_, fun hbad => exec_rdprng_error (readElement_of_badIndex s hbad)⟩
  · rintro k rfl
    exact exec_rdprng_ok (readElement_word s k)
  · rintro rfl
    exact exec_rdprng_ok (readElement_inext s)
  · rintro rfl
    exact exec_rdprng_ok (readElement_inextp s)
  · rintro rfl
    exact exec_rdprng_ok (readElement_seeded s)

/-! ## What WRPRNG accepts at each state index (rule R254) -/

/-- The low 32 bits of a word's value are its low half. -/
theorem ofInt32_toInt (w : Word) : BitVec.ofInt 32 w.toInt = w.extractLsb' 0 32 :=
  (BitVec.signExtend_eq_setWidth_of_le w (by decide)).trans (BitVec.setWidth_eq_extractLsb' (by decide))

theorem writeElement_of_badIndex (s : State) {idx : Int} (value : Int) (h : idx < 0 ∨ 58 < idx) :
    writeElement s idx value = .error .badStateAccess :=
  if_pos h

theorem writeElement_of_badCursor (s : State) {idx value : Int} (hidx : idx = 56 ∨ idx = 57)
    (h : value < 0 ∨ 55 < value) : writeElement s idx value = .error .badStateAccess := by
  rw [writeElement, if_neg (by omega), if_neg (by omega), if_pos (by omega), if_pos h]

theorem writeElement_of_badPhase (s : State) {value : Int} (h : value ≠ 0 ∧ value ≠ 1) :
    writeElement s 58 value = .error .badStateAccess :=
  if_pos h

theorem exec_wrprng_error {idx value : Int} {s : State} {c : FaultCode} (h : writeElement s idx value = .error c) :
    exec (.wrprng idx value) s = .next (s.raise c) :=
  congrArg (fun r : Except FaultCode State => controlCommand s (r.map fun t => (t, resultZero))) h

/-- Settles O22, region by region of the state index space, and within a region by the value. -/
theorem wrprngWritesEveryElement : Obligations.WrprngWritesEveryElement := by
  refine fun a b s => ⟨decode_setWidth 0x04#8 a b, fun k ha => ?_, fun k ha hb => ?_, fun k ha hb => ?_,
    fun v ha hb => ?_, fun hbad => exec_wrprng_error (c := .badStateAccess) ?_⟩
  · rw [ha, ← ofInt32_toInt]
    exact exec_wrprng_ok (writeElement_word s k b.toInt)
  · rw [ha, hb]
    exact exec_wrprng_ok (writeElement_inext s k)
  · rw [ha, hb]
    exact exec_wrprng_ok (writeElement_inextp s k)
  · rw [ha, hb]
    exact exec_wrprng_ok (writeElement_phase s v)
  · rcases hbad with hlo | hhi | ⟨hidx, hval⟩ | ⟨hidx, hval⟩
    · exact writeElement_of_badIndex s _ (.inl hlo)
    · exact writeElement_of_badIndex s _ (.inr hhi)
    · exact writeElement_of_badCursor s hidx hval
    · exact hidx ▸ writeElement_of_badPhase s hval

/-! ## NOP and CLRFAULT -/

theorem exec_nop (s : State) : exec .nop s = .next (s.complete resultZero) := rfl

theorem exec_clrfault (s : State) : exec .clrfault s = .next (s.clearFault.complete resultZero) := rfl

/-- Settles O18. -/
theorem nopWritesZeroAndOk : Obligations.NopWritesZeroAndOk :=
  fun a b s => ⟨decode_setWidth 0x00#8 a b, exec_nop s⟩

/-- Settles O20. -/
theorem clrfaultClearsFault : Obligations.ClrfaultClearsFault :=
  fun a b s => ⟨decode_setWidth 0x02#8 a b, exec_clrfault s⟩

end Sys2Proof.Machine
end

section
/-! How a command that does not end OK ends (`spec/60_exceptions.md` rules R303 and R305): BLOCKED or a fault, and
nothing else is written. -/

namespace Sys2Proof.Machine

/-! ## BLOCKED -/

/-- Every compute command starts with the test of FAULT (rule R305). -/
theorem exec_of_fault {i : Instr} {s : State} (hi : isCompute i = true) (hf : s.fault ≠ codeOk) :
    exec i s = .next s.block := by
  cases i with
  | nop | rdstatus | clrfault | rdprng | wrprng => cases hi
  | add | sub | mul | div | floor | round | sign | abs | lut | sin | cos | sqrt | log2 | ln | exp
  | seed | next | nextmax | nextrange | gauss =>
    exact compute_of_fault _ hf

/-- Settles O14: a command that is no compute command is left with a fault or OK, and neither is BLOCKED. -/
theorem computeCommandsAreBlockedWhileFaultIsSet : Obligations.ComputeCommandsAreBlockedWhileFaultIsSet := by
  refine fun i s => ⟨exec_of_fault, fun hi t h => ?_⟩
  rcases exec_cases h with ⟨hi', -⟩ | ⟨-, c, rfl⟩ | ⟨u, w, -, rfl⟩
  · simp [hi] at hi'
  · exact c.code_ne_blocked
  · exact codeBlocked_ne_ok.symm

/-! ## The effect of an outcome other than OK -/

theorem exec_not_ok {i : Instr} {s t : State} (h : exec i s = .next t) (hne : t.status ≠ codeOk) :
    t = s.block ∨ ∃ c, t = s.raise c := by
  rcases exec_cases h with ⟨-, -, ht⟩ | ⟨-, c, ht⟩ | ⟨u, w, -, rfl⟩
  · exact .inl ht
  · exact .inr ⟨c, ht⟩
  · exact absurd rfl hne

theorem runPorts_not_ok {s t : State} (h : runPorts s = .next t) (hne : t.status ≠ codeOk) :
    t = s.block ∨ ∃ c, t = s.raise c := by
  rcases runPorts_cases s with ⟨i, -, hr⟩ | ⟨e, -, hr⟩
  · exact exec_not_ok (hr ▸ h) hne
  · exact .inr ⟨.illegalCommand, Host.Outcome.next.inj (h.symm.trans hr)⟩

/-- Settles O13: BLOCKED writes STATUS only, and a fault writes STATUS and a clear FAULT (rule R303). -/
theorem failingCommandHasNoOtherEffect : Obligations.FailingCommandHasNoOtherEffect := by
  intro s t h hne
  have hcases : t = s.block ∨ ∃ c, t = s.raise c := by
    rcases h with h | ⟨i, h⟩
    · exact runPorts_not_ok h hne
    · exact exec_not_ok h hne
  rcases hcases with rfl | ⟨c, rfl⟩
  · rfl
  · have hclear : c.code ≠ 0x09#8 ∧ s.fault = 0x00#8 ↔ s.fault = 0x00#8 := and_iff_right c.code_ne_blocked
    exact congrArg (fun code => { s with status := c.code, fault := code }) (if_congr hclear.symm rfl rfl)

end Sys2Proof.Machine
end

section
/-! The status registers stay legal (`spec/60_exceptions.md` rules R300, R303 and R305). -/

namespace Sys2Proof.Machine

/-! ## The ways a command ends -/

theorem CodesLegal.block {s : State} (hs : CodesLegal s) (hf : s.fault ≠ codeOk) : CodesLegal s.block := by
  obtain ⟨-, hfault, -⟩ := hs
  exact ⟨Nat.le_refl 9, hfault, fun _ => hf⟩

/-- A fault's code is legal in both registers, and FAULT keeps a code that it holds already. -/
theorem CodesLegal.raise {s : State} (hs : CodesLegal s) (c : FaultCode) : CodesLegal (s.raise c) := by
  obtain ⟨-, hfault, -⟩ := hs
  refine ⟨c.code_le.trans (by decide), ?_, fun _ => ?_⟩
  · rw [State.raise_fault]
    split_ifs
    · exact c.code_le
    · exact hfault
  · rw [State.raise_fault]
    split_ifs with hclear
    · exact c.code_ne_ok
    · exact hclear

/-- STATUS = OK asks nothing of FAULT but that its code exists. -/
theorem codesLegal_complete {u : State} (hfault : u.fault.toNat ≤ 8) (w : Word) : CodesLegal (u.complete w) :=
  ⟨Nat.zero_le 9, hfault, fun h => absurd rfl h⟩

/-- An effect leaves FAULT alone or, in CLRFAULT, clears it. -/
theorem Effect.fault_le {i : Instr} {s u : State} (h : Effect i s u) (hs : s.fault.toNat ≤ 8) :
    u.fault.toNat ≤ 8 := by
  by_cases hc : i = .clrfault
  · subst hc
    rw [h.fault_of_clrfault]
    decide
  · rwa [h.fault hc]

/-! ## Every event of the host -/

theorem exec_keeps_codesLegal {i : Instr} {s t : State} (hs : CodesLegal s) (h : exec i s = .next t) :
    CodesLegal t := by
  rcases exec_cases h with ⟨-, hf, rfl⟩ | ⟨-, c, rfl⟩ | ⟨u, w, he, rfl⟩
  · exact hs.block hf
  · exact hs.raise c
  · obtain ⟨-, hfault, -⟩ := hs
    exact codesLegal_complete (he.fault_le hfault) w

theorem runPorts_keeps_codesLegal {s t : State} (hs : CodesLegal s) (h : runPorts s = .next t) : CodesLegal t := by
  rcases runPorts_cases s with ⟨i, -, hr⟩ | ⟨e, -, hr⟩
  · exact exec_keeps_codesLegal hs (hr ▸ h)
  · obtain rfl := Host.Outcome.next.inj (hr.symm.trans h)
    exact hs.raise _

theorem codesLegal_resetKeeping (rest : List HostEvent) : CodesLegal (State.resetKeeping rest) :=
  resetCodesAreLegal

/-- Settles O9, event by event: waiting keeps the state, a command keeps legal codes legal, and reset makes them so. -/
theorem stepKeepsCodesLegal : Obligations.StepKeepsCodesLegal := by
  intro s t hs h
  have of_reset {e : HostEvent} {rest : List HostEvent} (hhost : s.host = e :: rest)
      (he : e = .reset ∨ ∃ c, e = .resetDuring c) : CodesLegal t :=
    Host.Outcome.next.inj ((step_reset hhost he).symm.trans h) ▸ codesLegal_resetKeeping rest
  match hhost : s.host with
  | [] => exact Host.Outcome.next.inj ((step_wait hhost).symm.trans h) ▸ hs
  | .command c :: rest =>
    have hlatch : CodesLegal (s.latch c rest) := hs
    exact runPorts_keeps_codesLegal hlatch ((step_command hhost).symm.trans h)
  | .reset :: rest => exact of_reset hhost (.inl rfl)
  | .resetDuring c :: rest => exact of_reset hhost (.inr ⟨c, rfl⟩)

end Sys2Proof.Machine
end

section
/-! The STATUS of every triple (`spec/60_exceptions.md` rules R301 and R302): the fault of each function of the model by
the condition of its row in rule R301, then the outcome of each command that is not BLOCKED, then the order of rule R302. -/

namespace Sys2Proof.Machine

/-! ## The fault of a computation -/

/-- The fault a computation ends with, if any. -/
def faultOf {α : Type} : Except FaultCode α → Option FaultCode
  | .ok _ => none
  | .error c => some c

@[simp] theorem faultOf_ok {α : Type} (v : α) : faultOf (.ok v) = none := rfl
@[simp] theorem faultOf_error {α : Type} (c : FaultCode) : faultOf (.error c : Except FaultCode α) = some c := rfl

@[simp] theorem faultOf_map {α β : Type} (f : α → β) (r : Except FaultCode α) : faultOf (r.map f) = faultOf r := by
  cases r <;> rfl

/-- A function that checks its operand and then cannot fail. -/
theorem faultOf_ite {α : Type} (p : Prop) [Decidable p] (c : FaultCode) (v : α) :
    faultOf (if p then .error c else .ok v) = if p then some c else none := by
  split_ifs <;> rfl

/-! ## The conditions of rule R301 -/

theorem faultOf_divQ (mode : Config.DivRound) (a b : Int) :
    faultOf (divQ mode a b) = if b = 0 then some .divByZero else none :=
  faultOf_ite ..

theorem faultOf_tableRead (p : Config.Params) (i : Int) :
    faultOf (tableRead p i) = if i < 0 ∨ 255 < i then some .lutIndex else none :=
  faultOf_ite ..

theorem faultOf_sqrtQ (x : Int) : faultOf (sqrtQ x) = if x < 0 then some .sqrtNegative else none :=
  faultOf_ite ..

theorem faultOf_log2Q (x : Int) : faultOf (log2Q x) = if x ≤ 0 then some .logNonpositive else none :=
  faultOf_ite ..

/-- LN has LOG2's fault (rule R171). -/
theorem faultOf_lnQ (p : Config.Params) (x : Int) :
    faultOf (lnQ p x) = if x ≤ 0 then some .logNonpositive else none := by
  rw [← faultOf_log2Q, lnQ]
  cases log2Q x <;> rfl

theorem faultOf_sinCore (x : Int) : faultOf (sinCore params x) = none := by
  rw [sinCore_eq, faultOf_ok]

theorem faultOf_expQ (x : Int) : faultOf (expQ params x) = none := by
  obtain ⟨v, hv, -⟩ := expQ_fits x
  rw [hv, faultOf_ok]

theorem faultOf_maxCheck (maxValue : Int) :
    faultOf (maxCheck maxValue) = if maxValue < 0 then some .prngRange else none :=
  faultOf_ite ..

theorem faultOf_rangeCheck (lo hi : Int) : faultOf (rangeCheck lo hi) = if hi ≤ lo then some .prngRange else none :=
  faultOf_ite ..

theorem faultOf_readElement (s : State) (idx : Int) :
    faultOf (readElement s idx) = if idx < 0 ∨ 58 < idx then some .badStateAccess else none := by
  rcases readElement_cases s idx with ⟨hbad, hr⟩ | ⟨hin, w, hr⟩
  · rw [hr, if_pos hbad, faultOf_error]
  · rw [hr, if_neg (by omega), faultOf_ok]

/-- WRPRNG checks the index before the value (rule R254). -/
theorem faultOf_writeElement (s : State) (idx value : Int) :
    faultOf (writeElement s idx value) = expectedFault (.wrprng idx value) s := by
  simp only [expectedFault]
  split_ifs with hidx hcursor hphase
  · rw [writeElement_of_badIndex s value hidx, faultOf_error]
  · obtain ⟨hat, hval⟩ := hcursor
    rw [writeElement_of_badCursor s hat hval, faultOf_error]
  · obtain ⟨rfl, hval⟩ := hphase
    rw [writeElement_of_badPhase s hval, faultOf_error]
  · rw [writeElement, if_neg hidx]
    split_ifs
    · rfl
    · omega
    · rfl
    · rfl
    · omega
    · rfl

/-! ## The draws -/

theorem faultOf_oneDraw (value : Int → Except FaultCode Word) (g : Prng) :
    faultOf (oneDraw value g) = faultOf (value (rawDraw g).1) :=
  faultOf_map ..

theorem faultOf_twoDraws (value : Int → Int → Except FaultCode Word) (g : Prng) :
    faultOf (twoDraws value g) = faultOf (value (rawDraw g).1 (rawDraw (rawDraw g).2).1) :=
  faultOf_map ..

/-- The division by MBIG never faults, whatever the raw draw (rule R213). -/
theorem faultOf_scaledDraw (r range : Int) : faultOf (scaledDraw params r range) = none := by
  have hbig : fromInt mBig ≠ 0 := by decide
  rw [scaledDraw, sampleQ, divQ_of_ne_zero _ _ hbig]
  rfl

theorem faultOf_nextMaxDraw (maxValue : Int) (g : Prng) : faultOf (nextMaxDraw params maxValue g) = none := by
  rw [nextMaxDraw_eq, faultOf_oneDraw, faultOf_map, faultOf_scaledDraw]

theorem faultOf_nextRangeDraw (lo hi : Int) (g : Prng) : faultOf (nextRangeDraw params lo hi g) = none := by
  by_cases h : hi - lo ≤ i32Max
  · rw [nextRangeDraw_of_small params h, faultOf_oneDraw, faultOf_map, faultOf_scaledDraw]
  · rw [nextRangeDraw_of_large params h, faultOf_twoDraws, faultOf_ok]

/-- A raw draw is -1 or a value in range, and only -1 makes the radius the root of a negative number (rule R220). -/
theorem faultOf_gaussDraw (g : Prng) :
    faultOf (gaussDraw params g) = if (rawDraw g).1 = -1 then some .sqrtNegative else none := by
  have hr1 := rawDraw_range g
  have hr2 := rawDraw_range (rawDraw g).2
  rw [gaussDraw_eq, faultOf_twoDraws, faultOf_map]
  split_ifs with hneg
  · rw [gaussValue_neg_one hneg hr2, faultOf_error]
  · obtain ⟨v, hv, -⟩ := gaussValue_ok (r1 := (rawDraw g).1) (by omega) hr2
    rw [hv, faultOf_ok]

/-! ## The STATUS a command ends with -/

/-- The STATUS of a command that ran: the code of its fault, or OK. -/
def statusOf : Option FaultCode → Code
  | some c => c.code
  | none => codeOk

theorem finish_status (s : State) (r : Except FaultCode (State × Word)) :
    (s.finish r).status = statusOf (faultOf r) := by
  cases r <;> rfl

/-- A command's meaning answers a next state, with the STATUS of that fault or OK. -/
def EndsIn (o : Host.Outcome State Fault Refusal) (f : Option FaultCode) : Prop :=
  ∃ t, o = .next t ∧ t.status = statusOf f

section

variable {s : State} {f : Option FaultCode}

theorem controlCommand_endsIn {r : Except FaultCode (State × Word)} (hr : faultOf r = f) :
    EndsIn (controlCommand s r) f :=
  ⟨_, rfl, hr ▸ finish_status s r⟩

theorem computeCommand_endsIn {r : Except FaultCode (State × Word)} (h : s.fault = codeOk) (hr : faultOf r = f) :
    EndsIn (computeCommand s r) f :=
  ⟨_, compute_of_clear r h, hr ▸ finish_status s r⟩

theorem computeValue_endsIn {r : Except FaultCode Word} (h : s.fault = codeOk) (hr : faultOf r = f) :
    EndsIn (computeValue s r) f :=
  computeCommand_endsIn h ((faultOf_map _ r).trans hr)

/-- A command whose function answers a value or a fault. -/
theorem computeValue_map_endsIn {g : Int → Word} {r : Except FaultCode Int} (h : s.fault = codeOk)
    (hr : faultOf r = f) : EndsIn (computeValue s (r.map g)) f :=
  computeValue_endsIn h ((faultOf_map g r).trans hr)

/-- A draw command checks its operand, then SEEDED, and then draws (rule R302). -/
theorem computeDraw_endsIn {check : Except FaultCode Unit} {draw : Prng → Except FaultCode (Word × Prng)}
    (h : s.fault = codeOk)
    (hr : (faultOf check).or (if s.seeded then faultOf (draw s.prng) else some .notSeeded) = f) :
    EndsIn (computeDraw s check draw) f := by
  refine computeCommand_endsIn h (Eq.trans ?_ hr)
  cases check with
  | error c => rfl
  | ok u =>
    cases hs : s.seeded with
    | false => simp [bind, Except.bind, drawGuard, hs]
    | true => cases hd : draw s.prng <;> simp [bind, Except.bind, drawGuard, hs, pure, Except.pure]

/-- Rule R301, row by row: a command that is not BLOCKED ends with the fault of its row. -/
theorem exec_endsIn_expectedFault {i : Instr} (h : isCompute i = true → s.fault = codeOk) :
    EndsIn (exec i s) (expectedFault i s) := by
  cases i with
  | nop | rdstatus | clrfault => exact controlCommand_endsIn rfl
  | rdprng idx => exact controlCommand_endsIn ((faultOf_map ..).trans (faultOf_readElement s idx))
  | wrprng idx value => exact controlCommand_endsIn ((faultOf_map ..).trans (faultOf_writeElement s idx value))
  | add | sub | mul | floor | round | sign | abs => exact computeValue_endsIn (h rfl) rfl
  | div a b => exact computeValue_map_endsIn (h rfl) (faultOf_divQ ..)
  | lut j => exact computeValue_map_endsIn (h rfl) (faultOf_tableRead ..)
  | sin x | cos x => exact computeValue_map_endsIn (h rfl) (faultOf_sinCore _)
  | sqrt x => exact computeValue_map_endsIn (h rfl) (faultOf_sqrtQ x)
  | log2 x => exact computeValue_map_endsIn (h rfl) (faultOf_log2Q x)
  | ln x => exact computeValue_map_endsIn (h rfl) (faultOf_lnQ _ x)
  | exp x => exact computeValue_map_endsIn (h rfl) (faultOf_expQ x)
  | seed n => exact computeCommand_endsIn (h rfl) rfl
  | next => exact computeDraw_endsIn (h rfl) rfl
  | nextmax hi =>
    refine computeDraw_endsIn (h rfl) ?_
    rw [faultOf_maxCheck, faultOf_nextMaxDraw, expectedFault]
    split_ifs <;> rfl
  | nextrange lo hi =>
    refine computeDraw_endsIn (h rfl) ?_
    rw [faultOf_rangeCheck, faultOf_nextRangeDraw, expectedFault]
    split_ifs <;> rfl
  | gauss =>
    refine computeDraw_endsIn (h rfl) ?_
    rw [faultOf_gaussDraw]
    rfl

/-! ## The order of rule R302 -/

theorem expectedStatus_of_illegal {e : IllegalWord} (hd : decode s.ports = .error e) :
    expectedStatus s = FaultCode.illegalCommand.code := by
  simp [expectedStatus, hd, FaultCode.code]

theorem expectedStatus_of_blocked {i : Instr} (hd : decode s.ports = .ok i) (hi : isCompute i = true)
    (hf : s.fault ≠ codeOk) : expectedStatus s = codeBlocked := by
  have hf' : s.fault ≠ 0x00#8 := hf
  simp [expectedStatus, hd, hi, hf', codeBlocked]

theorem expectedStatus_of_runs {i : Instr} (hd : decode s.ports = .ok i)
    (h : ¬ (isCompute i = true ∧ s.fault ≠ codeOk)) : expectedStatus s = statusOf (expectedFault i s) := by
  have hrun : (isCompute i && decide (s.fault ≠ 0x00#8)) = false := by simpa [codeOk] using h
  simp only [expectedStatus, hd, hrun]
  cases expectedFault i s <;> rfl

end

/-- Settles O12: an illegal word, then BLOCKED, then the fault of the command's row of rule R301, then OK. -/
theorem statusOfEveryCommand : Obligations.StatusOfEveryCommand := by
  intro s
  rcases runPorts_cases s with ⟨i, hd, hr⟩ | ⟨e, hd, hr⟩
  · rw [hr]
    by_cases hblocked : isCompute i = true ∧ s.fault ≠ codeOk
    · obtain ⟨hi, hf⟩ := hblocked
      exact ⟨_, exec_of_fault hi hf, (expectedStatus_of_blocked hd hi hf).symm⟩
    · rw [expectedStatus_of_runs hd hblocked]
      exact exec_endsIn_expectedFault fun hi => by_contra fun hf => hblocked ⟨hi, hf⟩
  · exact ⟨_, hr, (expectedStatus_of_illegal hd).symm⟩

end Sys2Proof.Machine
end

section
/-! The block never stops (`spec/70_reset_and_hazards.md` rule R345): whatever the host's next event is, or with none,
the step answers a next state. -/

namespace Sys2Proof.Machine

/-- No event of the host stops the block: it waits, runs the triple it is given, or resets. -/
theorem step_next (s : State) : ∃ t, step s = .next t :=
  match hhost : s.host with
  | [] => ⟨s, step_wait hhost⟩
  | .command c :: rest => step_command hhost ▸ runPorts_next (s.latch c rest)
  | .reset :: _ => ⟨_, step_reset hhost (.inl rfl)⟩
  | .resetDuring c :: _ => ⟨_, step_reset hhost (.inr ⟨c, rfl⟩)⟩

/-- Settles O7: with no event the step waits, and from every state, by cases on the next event, it answers a state. -/
theorem stepWaitsForTheHostAndNeverStops : Obligations.StepWaitsForTheHostAndNeverStops :=
  ⟨fun _ => step_wait, step_next⟩

end Sys2Proof.Machine
end
